-- ==== Sys2Proof/Word.lean ====
section
/-! DEFINITION. The values of 00_scope.md R16: a byte, a 16-bit number, a 32-bit register value.
No value of this hardware is signed. -/

namespace Sys2Proof

/-- An unsigned 8-bit value (R16). -/
abbrev Byte := BitVec 8

/-- An unsigned 16-bit value: a wire address or a checksum (R16, R17). -/
abbrev Half := BitVec 16

/-- An unsigned 32-bit register value (R16, R24). -/
abbrev Word := BitVec 32

end Sys2Proof
end

