-- ==== Sys2Proof/Syntax.lean ====
section
/-! DEFINITION. What the host can say to the block: the four commands, the registers by name, the
operations of a host program, and whose step comes next. -/

namespace Sys2Proof

/-- The four commands of spec/opcode_table.json (R80). They have no operand fields (R83): a command
takes its operands from the parameter registers and from IN. -/
inductive Instr where
  | buildFrames
  | fragment
  | buildFrame
  | checksum
deriving DecidableEq, Repr, Inhabited

/-- `lat`, the record a command is latched into when it is accepted (10_state.md R36). -/
structure Latched where
  op     : Instr
  legacy : Bool
  ctrl   : Byte
  dst    : Half
  src    : Half
  len    : Nat
deriving DecidableEq, Repr, Inhabited

/-- The registers of the window, by the names of 20_memory.md R63. -/
inductive Reg where
  | cmd
  | status
  | config
  | ctrlCode
  | dst
  | src
  | len
  | units
deriving DecidableEq, Repr

/-- The width of a register-port access. The port admits `word` only (20_memory.md R60). -/
inductive Width where
  | byte
  | half
  | word
deriving DecidableEq, Repr

/-- One operation of a host program (30_encoding.md R84, R85). `wr` and `rd` carry a width and any
offset, so that the accesses R60 leaves outside the interface can be written down and refused. -/
inductive HostOp where
  /-- `RegWrite(off, v)`. -/
  | wr (width : Width) (off : Nat) (v : Word)
  /-- `RegRead(off)`; the value is recorded. -/
  | rd (width : Width) (off : Nat)
  /-- Offer the listed bytes on IN, in order. -/
  | push (bytes : List Byte)
  /-- Take one OUT beat. -/
  | pull
  /-- Take OUT beats until the last one taken has eom = 1 (R85). -/
  | pullAll
  /-- Read `off` until `(value & mask) = val`. -/
  | poll (off : Nat) (mask val : Word)
deriving DecidableEq, Repr

/-- Whose step comes next, of the steps of 40_command_interface.md R120: the host's next operation
(a register access, an offer or an OUT transfer), an IN transfer, or reset. -/
inductive Turn where
  | host
  | input
  | reset
deriving DecidableEq, Repr

end Sys2Proof
end

