-- ==== Sys2Proof/Config.lean ====
section
/-! DEFINITION. What is fixed for one block when it is built (70_reset_and_hazards.md R283), each left
open by the spec, and the free value of `lat` after reset. None of the opaque constants has a body, so
a theorem that names one holds whatever its value is. -/

namespace Sys2Proof.Config

/-- The first byte of the sync marker on the wire (00_scope.md R13, a parameter; log 6). -/
opaque sync0 : Byte

/-- The second byte of the sync marker on the wire (00_scope.md R13, a parameter; log 6). -/
opaque sync1 : Byte

/-- The checksum algorithm: a total function of the bytes alone and nothing more (00_scope.md R12,
43_checksum.md R210, a parameter; log 5). -/
opaque crc16 : List Byte → Half

/-- By how much MAX_LEN exceeds its lower bound 250 (00_scope.md R14, a parameter; log 7). -/
opaque maxLenAbove250 : Fin (0xFFFFFFFF - 250 + 1)

/-- MAX_LEN, the largest LEN a command accepts: any number from 250 to 0xFFFF_FFFF, and no other
(00_scope.md R14; log 7). -/
def maxLen : Nat := maxLenAbove250.val + 250

/-- What `lat` holds after the n-th reset: the spec says "lat becomes unspecified" (70_reset_and_hazards.md
R280, 10_state.md R36), so nothing constrains it (log 8). -/
opaque latAfterReset : Nat → Latched

end Sys2Proof.Config
end

