-- ==== Sys2Proof/WellFormed.lean ====
section
/-! DEFINITION. Which terms of the syntax the spec gives a meaning. A command has no operand fields
(30_encoding.md R83), so each of the four is well formed; a host operation is well formed when its register
access is one the port admits (20_memory.md R60). -/

namespace Sys2Proof

/-- Every command is well formed: it has no field that could be out of range (30_encoding.md R83). -/
def Instr.wf (i : Instr) : Bool :=
  match i with
  | .buildFrames => true
  | .fragment => true
  | .buildFrame => true
  | .checksum => true

/-- The access is as wide as the port (20_memory.md R60). -/
def Width.wf (w : Width) : Bool :=
  match w with
  | .byte => false
  | .half => false
  | .word => true

/-- The offset is aligned to 4 (20_memory.md R60). -/
def offsetAligned (off : Nat) : Bool := off % 4 == 0

/-- The offset lies in the 64-byte window (20_memory.md R60, R63). -/
def offsetInWindow (off : Nat) : Bool := decide (off < 0x40)

/-- A host operation is well formed when its register access, if it makes one, is an aligned 32-bit
access inside the window (20_memory.md R60). -/
def HostOp.wf (op : HostOp) : Bool :=
  match op with
  | .wr w off _ => w.wf && offsetAligned off && offsetInWindow off
  | .rd w off => w.wf && offsetAligned off && offsetInWindow off
  | .push _ => true
  | .pull => true
  | .pullAll => true
  | .poll off _ _ => offsetAligned off && offsetInWindow off

end Sys2Proof
end

