-- ==== Sys2Proof/Decode.lean ====
section
/-! DEFINITION. Decoding a CMD word (30_encoding.md R80 to R82), its encoder, and the address map of the
register window (20_memory.md R63). The port carries a 32-bit value, so no byte order enters (R68). -/

namespace Sys2Proof

/-- Why a CMD word is illegal (30_encoding.md R81, R82; 60_exceptions.md R256). -/
inductive IllegalWord where
  /-- v[31:4] is not zero. -/
  | reservedBits
  /-- v[3:0] is 0x0 or 0x5 to 0xF. -/
  | noSuchOp
deriving DecidableEq, Repr

/-- The opcode map: bits [3:0] of the CMD word (30_encoding.md R80). -/
def opOfCode (op : BitVec 4) : Option Instr :=
  if op = 0x1#4 then some .buildFrames
  else if op = 0x2#4 then some .fragment
  else if op = 0x3#4 then some .buildFrame
  else if op = 0x4#4 then some .checksum
  else none

/-- Decoding, total on every 32-bit word (30_encoding.md R81). -/
def decode (v : Word) : Except IllegalWord Instr :=
  if v.extractLsb' 4 28 ≠ 0#28 then .error .reservedBits
  else
    match opOfCode (v.extractLsb' 0 4) with
    | some i => .ok i
    | none => .error .noSuchOp

/-- The CMD word of a command: OP in [3:0], the reserved bits zero (30_encoding.md R80). -/
def encode (i : Instr) : Word :=
  match i with
  | .buildFrames => 0#28 ++ 0x1#4
  | .fragment => 0#28 ++ 0x2#4
  | .buildFrame => 0#28 ++ 0x3#4
  | .checksum => 0#28 ++ 0x4#4

/-- The CMD word that the low `nbits` bits of `w` make, the bits above them zero. -/
def tableWord (nbits w : Nat) : Word := BitVec.ofNat 32 (w % 2 ^ nbits)

/-- The command the decoder reads from a word given as spec/opcode_table.json numbers its bits: bit 0 of
the table is bit 0 of the CMD value (30_encoding.md R80; log 13). A word with a bit above 31 is no CMD word. -/
def decodeTableWord (nbits w : Nat) : Option Instr :=
  if w % 2 ^ nbits < 2 ^ 32 then
    match decode (tableWord nbits w) with
    | .ok i => some i
    | .error _ => none
  else none

/-- The byte offset of a register (20_memory.md R63). -/
def Reg.offset (r : Reg) : Nat :=
  match r with
  | .cmd => 0x00
  | .status => 0x04
  | .config => 0x08
  | .ctrlCode => 0x0C
  | .dst => 0x10
  | .src => 0x14
  | .len => 0x18
  | .units => 0x1C

/-- The register at a byte offset of the window; none where the window holds no register
(0x20 to 0x3C, 20_memory.md R63). -/
def regAt (off : Nat) : Option Reg :=
  if off = 0x00 then some .cmd
  else if off = 0x04 then some .status
  else if off = 0x08 then some .config
  else if off = 0x0C then some .ctrlCode
  else if off = 0x10 then some .dst
  else if off = 0x14 then some .src
  else if off = 0x18 then some .len
  else if off = 0x1C then some .units
  else none

end Sys2Proof
end

