-- ==== Sys2Proof/Machine/State.lean ====
section
/-! DEFINITION. The state of the block (10_state.md R20), of its host (R39, 30_encoding.md R84), and the
order of the steps to come; the reasons a step can stop; the state after reset (10_state.md R42). -/

namespace Sys2Proof.Machine

/-- The block's sequencing state (10_state.md R35). -/
inductive Phase where
  | idle
  | load
  | emit
deriving DecidableEq, Repr

/-- The values STATUS.ERRCODE takes (60_exceptions.md R250). -/
inductive ErrCode where
  | none
  | illegalCmd
  | dstRange
  | srcRange
  | lenRange
  | capacity
deriving DecidableEq, Repr

/-- One transfer on OUT (30_encoding.md R95). -/
structure Beat where
  data  : Byte
  eou   : Bool
  eom   : Bool
  empty : Bool
deriving DecidableEq, Repr

/-- The block and its host. -/
structure State where
  /-- STATUS.DONE (R26). -/
  done      : Bool
  /-- STATUS.ERR (R26). -/
  err       : Bool
  /-- STATUS.ERRCODE (R26, R250). -/
  errCode   : ErrCode
  /-- CONFIG.LEGACY_SEG (R27). -/
  legacySeg : Bool
  /-- CTRLCODE.CODE (R28). -/
  ctrlCode  : Byte
  /-- DST (R29). -/
  dst       : Word
  /-- SRC (R30). -/
  src       : Word
  /-- LEN (R31). -/
  len       : Word
  /-- UNITS (R32). -/
  units     : Word
  /-- The sequencing state (R35); STATUS.BUSY and STATUS.PHASE are functions of it (R26). -/
  phase     : Phase
  /-- The latched command (R36). -/
  lat       : Latched
  /-- The input bytes taken for the current command, in arrival order (R37). -/
  inbuf     : List Byte
  /-- The OUT beats not yet delivered, in delivery order (R38). -/
  outq      : List Beat
  /-- Host side: bytes offered on IN and not yet taken (R39). -/
  hostIn    : List Byte
  /-- Host side: beats received from OUT, oldest first (R39). -/
  hostOut   : List Beat
  /-- Host side: the values register reads returned, oldest first (R84; log 3). -/
  reads     : List Word
  /-- Host side: the rest of the host's program (R84; log 3). -/
  prog      : List HostOp
  /-- The model's own: the order in which the steps of R120 come (log 1). -/
  turns     : List Turn
  /-- The model's own: how many resets there were since power-on, for the free value of `lat` (log 8). -/
  resetCount : Nat
deriving DecidableEq, Repr

/-- Why a step can fault: never. Every register access is allowed and none faults (60_exceptions.md R262);
an error is a rejection reported in STATUS (R255), and a host that withholds input or output makes a
hang, not a fault (40_command_interface.md R133). So the type has no constructor, which is safe: no
step stops where the block goes on. -/
inductive Fault where
deriving DecidableEq, Repr

/-- Why a step can be refused. -/
inductive Refusal where
  /-- Raised by an arm of `exec` whose command has no meaning yet; no arm does now. Safe. -/
  | notModelled (mnemonic : String)
  /-- Raised by a host operation that accesses a byte or a halfword; the model refuses it
  (20_memory.md R60). Safe: nothing is claimed of such a program. -/
  | subWordAccess
  /-- Raised by a host operation whose offset is no multiple of 4 (20_memory.md R60). Safe. -/
  | misalignedAccess
  /-- Raised by a host operation whose offset lies outside 0x00 to 0x3C (20_memory.md R60; log 2). Safe. -/
  | outsideWindow
deriving DecidableEq, Repr

/-- The machine right after reset (10_state.md R42, 70_reset_and_hazards.md R280). `lat` is unspecified
there: a free value (log 8). The host has nothing offered, received or planned (log 3). -/
def State.reset : State where
  done := false
  err := false
  errCode := .none
  legacySeg := true
  ctrlCode := 0x44#8
  dst := 0#32
  src := 0#32
  len := 0#32
  units := 0#32
  phase := .idle
  lat := Config.latAfterReset 0
  inbuf := []
  outq := []
  hostIn := []
  hostOut := []
  reads := []
  prog := []
  turns := []
  resetCount := 0

end Sys2Proof.Machine
end

