-- ==== Sys2Proof/Machine/Flags.lean ====
section
/-! DEFINITION. The STATUS register and the packed OUT beat as words (10_state.md R26, 60_exceptions.md R250,
30_encoding.md R95), and the three ways a command writes the STATUS fields and UNITS
(40_command_interface.md R123, R124, R127). -/

namespace Sys2Proof.Machine

/-- STATUS.PHASE (10_state.md R26). -/
def Phase.code (p : Phase) : BitVec 2 :=
  match p with
  | .idle => 0#2
  | .load => 1#2
  | .emit => 2#2

/-- STATUS.ERRCODE (60_exceptions.md R250). -/
def ErrCode.code (c : ErrCode) : BitVec 4 :=
  match c with
  | .none => 0#4
  | .illegalCmd => 1#4
  | .dstRange => 2#4
  | .srcRange => 3#4
  | .lenRange => 4#4
  | .capacity => 5#4

/-- STATUS.BUSY (10_state.md R26). -/
def State.busy (s : State) : Bool := s.phase != .idle

/-- The value of STATUS: [31:10] zero, PHASE [9:8], ERRCODE [7:4], [3] zero, ERR [2], DONE [1], BUSY [0]
(10_state.md R26). -/
def State.status (s : State) : Word :=
  0#22 ++ s.phase.code ++ s.errCode.code ++ 0#1 ++ BitVec.ofBool s.err ++ BitVec.ofBool s.done
    ++ BitVec.ofBool s.busy

/-- A beat as an 11-bit word: empty [10], eom [9], eou [8], data [7:0] (30_encoding.md R95). -/
def Beat.pack (b : Beat) : BitVec 11 :=
  BitVec.ofBool b.empty ++ BitVec.ofBool b.eom ++ BitVec.ofBool b.eou ++ b.data

/-- The fields a rejection writes (40_command_interface.md R123). -/
def State.flagRejected (c : ErrCode) (s : State) : State :=
  { s with err := true, errCode := c, done := false, units := 0#32 }

/-- The STATUS fields and UNITS as an acceptance writes them (40_command_interface.md R124). -/
def State.flagAccepted (n : Nat) (s : State) : State :=
  { s with err := false, errCode := .none, done := false, units := BitVec.ofNat 32 n }

/-- The STATUS field the last OUT transfer of a command writes (40_command_interface.md R127). -/
def State.flagDone (s : State) : State := { s with done := true }

end Sys2Proof.Machine
end

