-- ==== Sys2Proof/Machine/Operands.lean ====
section
/-! DEFINITION. The constants fixed in the hardware (00_scope.md R15), the sequence notation (R17), the
operands a command latches (30_encoding.md R83, 40_command_interface.md R124), and the conditions a
CMD write tests (40_command_interface.md R122). -/

namespace Sys2Proof.Machine

/-- SEG_CAP: data bytes per sequenced segment (00_scope.md R15). -/
abbrev segCap : Nat := 249
/-- SEG_DIV: divisor of the legacy segment count (00_scope.md R15). -/
abbrev segDiv : Nat := 250
/-- SEG_MAX: largest segment (00_scope.md R15). -/
abbrev segMax : Nat := 250
/-- CHUNK: largest chunk (00_scope.md R15). -/
abbrev chunkSize : Nat := 16
/-- LEN_BIAS: control, destination and source bytes (00_scope.md R15). -/
abbrev lenBias : Nat := 5
/-- SEQ_MOD: sequence-index modulus (00_scope.md R15). -/
abbrev seqMod : Nat := 64
/-- The FIRST flag of a sequence byte (00_scope.md R15). -/
abbrev firstFlag : Byte := 0x40#8
/-- The LAST flag of a sequence byte (00_scope.md R15). -/
abbrev lastFlag : Byte := 0x80#8

/-- The least natural at least a / b, for b > 0 (00_scope.md R16). -/
def ceilDiv (a b : Nat) : Nat := (a + b - 1) / b

/-- `xs[a:b]`, clamped to the sequence, for a ≤ b (00_scope.md R17). -/
def slice (xs : List Byte) (a b : Nat) : List Byte := (xs.take b).drop a

/-- `LE16(v)`: the low byte first (00_scope.md R17). -/
def le16 (v : Half) : List Byte := [v.extractLsb' 0 8, v.extractLsb' 8 8]

/-- The operands of an accepted command: the parameter registers as they stand
(30_encoding.md R83, 40_command_interface.md R124). -/
def latch (i : Instr) (s : State) : Latched where
  op := i
  legacy := s.legacySeg
  ctrl := s.ctrlCode
  dst := s.dst.extractLsb' 0 16
  src := s.src.extractLsb' 0 16
  len := s.len.toNat

/-- The condition of DST_RANGE (60_exceptions.md R251). -/
def dstOutOfRange (s : State) : Bool := decide (0xFFFF < s.dst.toNat)

/-- The condition of SRC_RANGE (60_exceptions.md R252). -/
def srcOutOfRange (s : State) : Bool := decide (0xFFFF < s.src.toNat)

/-- The condition of LEN_RANGE (60_exceptions.md R254). -/
def lenOverSegment (s : State) : Bool := decide (segMax < s.len.toNat)

/-- The condition of CAPACITY, LEN > MAX_LEN (60_exceptions.md R253). MAX_LEN is at least 250 (00_scope.md
R14), so the first test changes nothing: it lets a LEN up to 250 be evaluated without knowing MAX_LEN
(`lenOverCapacity_iff`). -/
def lenOverCapacity (s : State) : Bool :=
  decide (segMax < s.len.toNat) && decide (Config.maxLen < s.len.toNat)

/-- The code of the first condition that holds, in the order tested (60_exceptions.md R257). -/
def firstError (checks : List (Bool × ErrCode)) : Option ErrCode :=
  match checks with
  | [] => none
  | (true, c) :: _ => some c
  | (false, _) :: rest => firstError rest

end Sys2Proof.Machine
end

