-- ==== Sys2Proof/Machine/Segments.lean ====
section
/-! DEFINITION. The function of the fragmenter (41_fragmenter.md R150 to R155). -/

namespace Sys2Proof.Machine

/-- The sequence byte of segment `i` of `n` (41_fragmenter.md R151). -/
def seqByte (i n : Nat) : Byte :=
  BitVec.ofNat 8 (i % seqMod)
    ||| (if i = 0 then firstFlag else 0#8)
    ||| (if i = n - 1 then lastFlag else 0#8)

/-- The legacy segment count (41_fragmenter.md R152). -/
def segCountLegacy (L : Nat) : Nat := max 1 (ceilDiv L segDiv)

/-- The corrected segment count (41_fragmenter.md R153). -/
def segCountCorrected (L : Nat) : Nat := if L ≤ segMax then 1 else ceilDiv L segCap

/-- The segment count in the mode CONFIG.LEGACY_SEG selects (41_fragmenter.md R154). -/
def segCount (L : Nat) (legacy : Bool) : Nat :=
  if legacy then segCountLegacy L else segCountCorrected L

/-- The data bytes of segment `i` when there are several (41_fragmenter.md R155). -/
def segSlice (data : List Byte) (i : Nat) : List Byte :=
  slice data (i * segCap) ((i + 1) * segCap)

/-- The segments of `data` (41_fragmenter.md R155). -/
def fragment (data : List Byte) (legacy : Bool) : List (List Byte) :=
  let n := segCount data.length legacy
  if n = 1 then [data]
  else (List.range n).map fun i => seqByte i n :: segSlice data i

end Sys2Proof.Machine
end

