-- ==== Sys2Proof/Machine/Frames.lean ====
section
/-! DEFINITION. The functions of the checksum unit (43_checksum.md R212), of the frame encoder
(42_frame_builder.md R181 to R184) and of the top level (44_build_frames.md R230). -/

namespace Sys2Proof.Machine

/-- The checksum of a byte sequence, as two bytes, evaluated from nothing but that sequence
(43_checksum.md R211, R212). -/
def checksum (data : List Byte) : List Byte := le16 (Config.crc16 data)

/-- The 8-byte frame header for a segment of length `s`, 0 to 250 (42_frame_builder.md R181; log 14). -/
def header (s : Nat) (c : Byte) (d r : Half) : List Byte :=
  [Config.sync0, Config.sync1, BitVec.ofNat 8 (s + lenBias), c] ++ le16 d ++ le16 r

/-- Chunk `k` of a segment (42_frame_builder.md R183). -/
def chunkAt (seg : List Byte) (k : Nat) : List Byte :=
  slice seg (chunkSize * k) (chunkSize * k + chunkSize)

/-- The chunks of a segment; none for the empty segment (42_frame_builder.md R183). -/
def chunks (seg : List Byte) : List (List Byte) :=
  (List.range (ceilDiv seg.length chunkSize)).map (chunkAt seg)

/-- The 10-byte preamble: the header and its checksum (42_frame_builder.md R184; 90_conflicts.md C1). -/
def preamble (s : Nat) (c : Byte) (d r : Half) : List Byte :=
  header s c d r ++ checksum (header s c d r)

/-- The body of a frame: every chunk followed by its own checksum (42_frame_builder.md R184). -/
def body (seg : List Byte) : List Byte :=
  (chunks seg).flatMap fun ch => ch ++ checksum ch

/-- The frame of a segment of at most 250 bytes (42_frame_builder.md R184). -/
def frame (seg : List Byte) (c : Byte) (d r : Half) : List Byte :=
  preamble seg.length c d r ++ body seg

/-- One frame per segment, in segment order (44_build_frames.md R230). -/
def buildFrames (data : List Byte) (c : Byte) (d r : Half) (legacy : Bool) : List (List Byte) :=
  (fragment data legacy).map fun seg => frame seg c d r

/-- One step of the bitwise CRC-16/DNP (43_checksum.md R217, marked there [from general knowledge]). -/
def crcDnpBit (c : Half) : Half :=
  if c.extractLsb' 0 1 = 1#1 then (c >>> 1) ^^^ 0xA6BC#16 else c >>> 1

/-- CRC-16/DNP, the usual instantiation of `crc16`, which is NOT normative (43_checksum.md R217,
93_implementation_defined.md G1; log 12). No definition of the model uses it: a claim about concrete
checksum bytes takes `Config.crc16 = crcDnp` as a named premise. -/
def crcDnp (xs : List Byte) : Half :=
  (xs.foldl (fun c b => crcDnpBit (crcDnpBit (crcDnpBit (crcDnpBit (crcDnpBit (crcDnpBit (crcDnpBit
    (crcDnpBit (c ^^^ b.setWidth 16))))))))) 0x0000#16) ^^^ 0xFFFF#16

end Sys2Proof.Machine
end

