-- ==== Sys2Proof/Machine/Ops.lean ====
section
/-! DEFINITION. The operations every command shares: evaluating a CMD word, rejecting it (this hardware's
one way of taking an exception) or accepting it, loading input, computing the output, delivering it, and
reset (30_encoding.md R96, 40_command_interface.md R121 to R132, 70_reset_and_hazards.md R280). -/

namespace Sys2Proof.Machine

/-! ### The output of a command -/

/-- The one beat of a unit with no bytes (30_encoding.md R95, R96). -/
def emptyUnitBeat (last : Bool) : Beat :=
  { data := 0x00#8, eou := true, eom := last, empty := true }

/-- The beats of the bytes of a unit: eou on the last one, and eom on it when the unit is the command's
last (30_encoding.md R96). -/
def byteBeats (last : Bool) : List Byte → List Beat
  | [] => []
  | [b] => [{ data := b, eou := true, eom := last, empty := false }]
  | b :: b' :: bs => { data := b, eou := false, eom := false, empty := false } :: byteBeats last (b' :: bs)

/-- The beats of one unit (30_encoding.md R96). -/
def unitBeats (u : List Byte) (last : Bool) : List Beat :=
  if u = [] then [emptyUnitBeat last] else byteBeats last u

/-- The beats of a list of units (30_encoding.md R96). -/
def beats : List (List Byte) → List Beat
  | [] => []
  | [u] => unitBeats u true
  | u :: u' :: us => unitBeats u false ++ beats (u' :: us)

/-- The units a latched command produces from its input bytes (40_command_interface.md R128). -/
def result (lat : Latched) (data : List Byte) : List (List Byte) :=
  match lat.op with
  | .buildFrames => buildFrames data lat.ctrl lat.dst lat.src lat.legacy
  | .fragment => fragment data lat.legacy
  | .buildFrame => [frame data lat.ctrl lat.dst lat.src]
  | .checksum => [checksum data]

/-- How many units a command produces (40_command_interface.md R132). -/
def unitCount (op : Instr) (L : Nat) (legacy : Bool) : Nat :=
  match op with
  | .buildFrames => segCount L legacy
  | .fragment => segCount L legacy
  | .buildFrame => 1
  | .checksum => 1

/-! ### Rejecting and accepting -/

/-- `Reject(code)`, the whole of how this hardware takes an exception: it writes ERR, ERRCODE, DONE and
UNITS and nothing else; no handler, no saved state (40_command_interface.md R123, 60_exceptions.md R255,
R260). There is no return from it: the next CMD write in IDLE is one (R260). -/
def reject (c : ErrCode) (s : State) : State := s.flagRejected c

/-- `finishLoad()`: the output is computed and its delivery begins (40_command_interface.md R125). -/
def finishLoad (s : State) : State :=
  { s with outq := beats (result s.lat s.inbuf), phase := .emit }

/-- What an acceptance writes before input is loaded (40_command_interface.md R124). -/
def latchCommand (i : Instr) (s : State) : State :=
  { s.flagAccepted (unitCount i s.len.toNat s.legacySeg) with lat := latch i s, inbuf := [] }

/-- The wait for input begins (40_command_interface.md R124). -/
def awaitInput (s : State) : State := { s with phase := .load }

/-- `accept(op)`: the command is latched; with LEN = 0 the output is computed at once, otherwise the block
waits for input in LOAD (40_command_interface.md R124). -/
def accept (i : Instr) (s : State) : State :=
  if s.len.toNat = 0 then finishLoad (latchCommand i s)
  else awaitInput (latchCommand i s)

/-- Command evaluation in IDLE: the tests in their order, then rejection or acceptance
(40_command_interface.md R122). -/
def evaluate (i : Instr) (checks : List (Bool × ErrCode)) (s : State) : State :=
  match firstError checks with
  | some c => reject c s
  | none => accept i s

/-- A CMD write acts in IDLE only; in LOAD and EMIT it is ignored and nothing changes
(40_command_interface.md R122, R129). -/
def whenIdle (f : State → State) (s : State) : State :=
  match s.phase with
  | .idle => f s
  | .load => s
  | .emit => s

/-- A CMD write whose word decodes to ILLEGAL (60_exceptions.md R256). -/
def illegalCommand (s : State) : State := whenIdle (reject .illegalCmd) s

/-! ### Streams -/

/-- The host offers a byte on IN; always enabled (40_command_interface.md R120 step 3). -/
def offer (b : Byte) (s : State) : State := { s with hostIn := s.hostIn ++ [b] }

/-- The block takes byte `b` from IN, of which `rest` stays offered (40_command_interface.md R126). -/
def takeByte (b : Byte) (rest : List Byte) (s : State) : State :=
  { s with hostIn := rest, inbuf := s.inbuf ++ [b] }

/-- IN transfer, enabled iff phase = LOAD and a byte is offered; otherwise nothing happens
(40_command_interface.md R126, R131; log 1). -/
def inTransfer (s : State) : State :=
  match s.phase, s.hostIn with
  | .load, b :: rest =>
    if s.inbuf.length + 1 = s.lat.len then finishLoad (takeByte b rest s) else takeByte b rest s
  | _, _ => s

/-- The beat the block offers on OUT, if it offers one (40_command_interface.md R127). -/
def offeredBeat (s : State) : Option Beat :=
  match s.phase with
  | .emit => s.outq.head?
  | .idle => none
  | .load => none

/-- The host takes beat `b` from OUT, and `rest` is left (40_command_interface.md R127). -/
def deliverBeat (b : Beat) (rest : List Beat) (s : State) : State :=
  { s with outq := rest, hostOut := s.hostOut ++ [b] }

/-- What the OUT transfer of a command's last beat also does (40_command_interface.md R127). -/
def completeCommand (s : State) : State :=
  { s.flagDone with phase := .idle, inbuf := [] }

/-- OUT transfer, enabled iff phase = EMIT; otherwise nothing happens (40_command_interface.md R127;
log 1, log 9). -/
def outTransfer (s : State) : State :=
  match s.phase, s.outq with
  | .emit, b :: rest =>
    if rest = [] then completeCommand (deliverBeat b rest s) else deliverBeat b rest s
  | _, _ => s

/-! ### Reset -/

/-- The reset input asserted: every state element of the block takes its reset value, `lat` a free one;
what the host holds stays (70_reset_and_hazards.md R280, R281, 10_state.md R42; log 8). -/
def blockReset (s : State) : State :=
  { s with
    done := false
    err := false
    errCode := .none
    legacySeg := true
    ctrlCode := 0x44#8
    dst := 0#32
    src := 0#32
    len := 0#32
    units := 0#32
    phase := .idle
    lat := Config.latAfterReset (s.resetCount + 1)
    inbuf := []
    outq := []
    resetCount := s.resetCount + 1 }

end Sys2Proof.Machine
end

