-- ==== Sys2Proof/Machine/ChecksumUnit.lean ====
section
/-! DEFINITION. The CHECKSUM command (43_checksum.md R213). -/

namespace Sys2Proof.Machine

/-- CHECKSUM: only the capacity is checked (43_checksum.md R213, 40_command_interface.md R122). Accepted,
its output is one 2-byte unit, also for LEN = 0: there is no sentinel (43_checksum.md R214). -/
def execChecksum (s : State) : Host.Outcome State Fault Refusal :=
  .next (whenIdle (fun s => evaluate .checksum [(lenOverCapacity s, .capacity)] s) s)

end Sys2Proof.Machine
end

