-- ==== Sys2Proof/Machine/Fragmenter.lean ====
section
/-! DEFINITION. The FRAGMENT command (41_fragmenter.md R156). -/

namespace Sys2Proof.Machine

/-- FRAGMENT: only the capacity is checked; DST and SRC are not (41_fragmenter.md R156,
40_command_interface.md R122). Accepted, its output is `fragment` of the input (`result`). -/
def execFragment (s : State) : Host.Outcome State Fault Refusal :=
  .next (whenIdle (fun s => evaluate .fragment [(lenOverCapacity s, .capacity)] s) s)

end Sys2Proof.Machine
end

