-- ==== Sys2Proof/Machine/FrameBuilder.lean ====
section
/-! DEFINITION. The BUILD_FRAME command (42_frame_builder.md R186). -/

namespace Sys2Proof.Machine

/-- BUILD_FRAME: both addresses, then the segment length, then the capacity are checked
(42_frame_builder.md R186, 40_command_interface.md R122). The last test cannot fail, since
MAX_LEN is at least 250 (00_scope.md R14). Accepted, its output is one `frame` (`result`). -/
def execBuildFrame (s : State) : Host.Outcome State Fault Refusal :=
  .next (whenIdle (fun s => evaluate .buildFrame
    [(dstOutOfRange s, .dstRange), (srcOutOfRange s, .srcRange), (lenOverSegment s, .lenRange),
      (lenOverCapacity s, .capacity)] s) s)

end Sys2Proof.Machine
end

