-- ==== Sys2Proof/Machine/TopLevel.lean ====
section
/-! DEFINITION. The BUILD_FRAMES command (44_build_frames.md R231). -/

namespace Sys2Proof.Machine

/-- BUILD_FRAMES: both addresses, then the capacity are checked; LEN_RANGE never applies
(44_build_frames.md R231, 40_command_interface.md R122). Accepted, its output is `buildFrames` of the
input (`result`). -/
def execBuildFrames (s : State) : Host.Outcome State Fault Refusal :=
  .next (whenIdle (fun s => evaluate .buildFrames
    [(dstOutOfRange s, .dstRange), (srcOutOfRange s, .srcRange), (lenOverCapacity s, .capacity)] s) s)

end Sys2Proof.Machine
end

