-- ==== Sys2Proof/Machine/Dispatch.lean ====
section
/-! DEFINITION. One arm per command: what a write of its word to CMD does
(40_command_interface.md R122, R129). -/

namespace Sys2Proof.Machine

def exec (i : Instr) (s : State) : Host.Outcome State Fault Refusal :=
  match i with
  | .buildFrames => Sys2Proof.Machine.execBuildFrames s
  | .fragment => Sys2Proof.Machine.execFragment s
  | .buildFrame => Sys2Proof.Machine.execBuildFrame s
  | .checksum => Sys2Proof.Machine.execChecksum s

end Sys2Proof.Machine
end

