-- ==== Sys2Proof/Machine/RegPort.lean ====
section
/-! DEFINITION. The register port (20_memory.md R60 to R64): which accesses it admits, what a read
returns and what a write does. -/

namespace Sys2Proof.Machine

/-- Why the port does not admit an access, if it does not: it is no 32-bit access, it is misaligned, or
it lies outside the window (20_memory.md R60; log 2). -/
def accessRefusal (w : Width) (off : Nat) : Option Refusal :=
  if !w.wf then some .subWordAccess
  else if !offsetAligned off then some .misalignedAccess
  else if !offsetInWindow off then some .outsideWindow
  else none

/-- The value of a register as a read sees it: CMD reads 0, reserved bits read 0 (20_memory.md R62,
10_state.md R33). -/
def regValue (r : Reg) (s : State) : Word :=
  match r with
  | .cmd => 0#32
  | .status => s.status
  | .config => (BitVec.ofBool s.legacySeg).setWidth 32
  | .ctrlCode => s.ctrlCode.setWidth 32
  | .dst => s.dst
  | .src => s.src
  | .len => s.len
  | .units => s.units

/-- `RegRead(off)`: the value it returns; an unmapped offset reads 0 (20_memory.md R62). It changes
nothing (10_state.md R34), so it has no state to give back. -/
def regRead (off : Nat) (s : State) : Word :=
  match regAt off with
  | some r => regValue r s
  | none => 0#32

/-- A write to CMD: the word is decoded and its command executed, or it is illegal
(20_memory.md R61, 40_command_interface.md R122, R129). -/
def writeCmd (v : Word) (s : State) : Host.Outcome State Fault Refusal :=
  match decode v with
  | .ok i => exec i s
  | .error _ => .next (illegalCommand s)

/-- A write to CONFIG stores bit 0 (20_memory.md R61). -/
def writeConfig (v : Word) (s : State) : State := { s with legacySeg := v.getLsbD 0 }

/-- A write to CTRLCODE stores bits [7:0] (20_memory.md R61). -/
def writeCtrlCode (v : Word) (s : State) : State := { s with ctrlCode := v.extractLsb' 0 8 }

/-- A write to DST stores all 32 bits (20_memory.md R61). -/
def writeDst (v : Word) (s : State) : State := { s with dst := v }

/-- A write to SRC stores all 32 bits (20_memory.md R61). -/
def writeSrc (v : Word) (s : State) : State := { s with src := v }

/-- A write to LEN stores all 32 bits (20_memory.md R61). -/
def writeLen (v : Word) (s : State) : State := { s with len := v }

/-- `RegWrite(off, v)`, in any phase; STATUS, UNITS and unmapped offsets ignore it
(20_memory.md R61, 40_command_interface.md R130). -/
def regWrite (off : Nat) (v : Word) (s : State) : Host.Outcome State Fault Refusal :=
  match regAt off with
  | some .cmd => writeCmd v s
  | some .config => .next (writeConfig v s)
  | some .ctrlCode => .next (writeCtrlCode v s)
  | some .dst => .next (writeDst v s)
  | some .src => .next (writeSrc v s)
  | some .len => .next (writeLen v s)
  | some .status => .next s
  | some .units => .next s
  | none => .next s

end Sys2Proof.Machine
end

