-- ==== Sys2Proof/Machine/HostProgram.lean ====
section
/-! DEFINITION. The host running its program (30_encoding.md R84), the pseudo-operations of R85, and one
turn of the whole machine (40_command_interface.md R120). The host makes one step of R120 a turn; an
operation that is not finished stays at the head of the program (log 3). -/

namespace Sys2Proof.Machine

/-- The host puts an operation back at the head of its program, to go on with it at its next turn. -/
def again (op : HostOp) (s : State) : State := { s with prog := op :: s.prog }

/-- The host has taken an operation from its program, of which `rest` is left. -/
def popOp (rest : List HostOp) (s : State) : State := { s with prog := rest }

/-- A step has been taken from the order of steps, of which `ts` is left (log 1). -/
def popTurn (ts : List Turn) (s : State) : State := { s with turns := ts }

/-- The host records the value a register read returned (30_encoding.md R84). -/
def recordRead (off : Nat) (s : State) : State := { s with reads := s.reads ++ [regRead off s] }

/-- The host's `WR`. -/
def hostWrite (w : Width) (off : Nat) (v : Word) (s : State) : Host.Outcome State Fault Refusal :=
  match accessRefusal w off with
  | some r => .refused r
  | none => regWrite off v s

/-- The host's `RD`. -/
def hostRead (w : Width) (off : Nat) (s : State) : Host.Outcome State Fault Refusal :=
  match accessRefusal w off with
  | some r => .refused r
  | none => .next (recordRead off s)

/-- The host's `PUSH`: one byte offered a turn. -/
def hostPush (bytes : List Byte) (s : State) : State :=
  match bytes with
  | [] => s
  | [b] => offer b s
  | b :: b' :: bs => again (.push (b' :: bs)) (offer b s)

/-- The host's `PULL`: it waits until the block offers a beat. -/
def hostPull (s : State) : State :=
  match offeredBeat s with
  | some _ => outTransfer s
  | none => again .pull s

/-- The host's `PULLALL`: one beat a turn, until the beat taken has eom = 1 (30_encoding.md R85). -/
def hostPullAll (s : State) : State :=
  match offeredBeat s with
  | some b => if b.eom then outTransfer s else again .pullAll (outTransfer s)
  | none => again .pullAll s

/-- The host's `POLL`: one read a turn, until the masked value is the wanted one. -/
def hostPoll (off : Nat) (mask val : Word) (s : State) : Host.Outcome State Fault Refusal :=
  match accessRefusal .word off with
  | some r => .refused r
  | none =>
    if regRead off s &&& mask = val then .next (recordRead off s)
    else .next (again (.poll off mask val) (recordRead off s))

/-- One operation of the host, `s` holding the rest of its program. -/
def hostOp (op : HostOp) (s : State) : Host.Outcome State Fault Refusal :=
  match op with
  | .wr w off v => hostWrite w off v s
  | .rd w off => hostRead w off s
  | .push bytes => .next (hostPush bytes s)
  | .pull => .next (hostPull s)
  | .pullAll => .next (hostPullAll s)
  | .poll off mask val => hostPoll off mask val s

/-- The host's turn: the operation at the head of its program; nothing when it has none left. -/
def hostTurn (s : State) : Host.Outcome State Fault Refusal :=
  match s.prog with
  | [] => .next s
  | op :: rest => hostOp op (popOp rest s)

/-- One turn of host and block (40_command_interface.md R120). -/
def runTurn (t : Turn) (s : State) : Host.Outcome State Fault Refusal :=
  match t with
  | .host => hostTurn s
  | .input => .next (inTransfer s)
  | .reset => .next (blockReset s)

/-- The first step of the order in `turns`; with none left the machine rests (log 1). -/
def takeTurn (s : State) : Host.Outcome State Fault Refusal :=
  match s.turns with
  | [] => .next s
  | t :: ts => runTurn t (popTurn ts s)

/-! ### Host syntax and pseudo-operations (30_encoding.md R84, R85) -/

/-- `WR <reg>, <imm32>`. -/
def wrReg (r : Reg) (v : Word) : HostOp := .wr .word r.offset v

/-- `RD <reg>`. -/
def rdReg (r : Reg) : HostOp := .rd .word r.offset

/-- `POLL <reg>, <mask>, <val>`. -/
def pollReg (r : Reg) (mask val : Word) : HostOp := .poll r.offset mask val

/-- `BUILD_FRAMES`. -/
def opBuildFrames : List HostOp := [wrReg .cmd 0x00000001#32]

/-- `FRAGMENT`. -/
def opFragment : List HostOp := [wrReg .cmd 0x00000002#32]

/-- `BUILD_FRAME`. -/
def opBuildFrame : List HostOp := [wrReg .cmd 0x00000003#32]

/-- `CHECKSUM`. -/
def opChecksum : List HostOp := [wrReg .cmd 0x00000004#32]

/-- `PARAMS <ctrl>, <dst>, <src>`. -/
def opParams (ctrl dst src : Word) : List HostOp :=
  [wrReg .ctrlCode ctrl, wrReg .dst dst, wrReg .src src]

/-- `PULLALL`. -/
def opPullAll : List HostOp := [.pullAll]

/-- `WAITIDLE`. -/
def opWaitIdle : List HostOp := [pollReg .status 0x1#32 0x0#32]

end Sys2Proof.Machine
end

