-- ==== Sys2Proof/Machine/Step.lean ====
section
/-! DEFINITION. One step of the machine (40_command_interface.md R120), and how one command word is placed
for the very next step (log 4). -/

namespace Sys2Proof.Machine

/-- One step of host and block: the next of the steps of R120 that `turns` names. -/
def step (s : State) : Host.Outcome State Fault Refusal := takeTurn s

/-- `s` with a host that, at the very next step, writes to CMD the word of `nbits` bits `w`. The block has
no program and no fetch (00_scope.md R4): a command comes to it as the host's CMD write (log 4). -/
def State.withFetchWord (s : State) (nbits w : Nat) : State :=
  { s with
    turns := .host :: s.turns
    prog := wrReg .cmd (tableWord nbits w) :: s.prog }

end Sys2Proof.Machine
end

