-- ==== Sys2Proof/Machine/Receiver.lean ====
section
/-! DEFINITION. What the other side can read back from the block's output: a frame's length from its
length byte (30_encoding.md R94), its segment (42_frame_builder.md R189), and the units of a beat list
(30_encoding.md R95, 70_reset_and_hazards.md R281). The block itself parses nothing (00_scope.md R8);
claims are stated with these. -/

namespace Sys2Proof.Machine

/-- The length of the frame of a segment of length `s` (30_encoding.md R91). -/
def frameLength (s : Nat) : Nat := 10 + s + 2 * ceilDiv s chunkSize

/-- The segment length a frame's byte 2 states (30_encoding.md R94). -/
def statedLength (f : List Byte) : Nat := (f.getD 2 0#8).toNat - lenBias

/-- `k` times: keep the next `min(16, remaining)` bytes and delete the 2 bytes after them, `s` being the
bytes of the segment still to come (42_frame_builder.md R189). -/
def stripChunks : Nat → Nat → List Byte → List Byte
  | 0, _, _ => []
  | k + 1, s, xs =>
    xs.take (min chunkSize s) ++ stripChunks k (s - chunkSize) (xs.drop (min chunkSize s + 2))

/-- The segment of a frame, its checksums removed (42_frame_builder.md R189). -/
def segmentOf (f : List Byte) : List Byte :=
  stripChunks (ceilDiv (statedLength f) chunkSize) (statedLength f) (f.drop 10)

/-- The units of a beat list: the complete ones in order, and the bytes of a unit whose last beat has not
come, which the host discards if the block is reset (30_encoding.md R95, 70_reset_and_hazards.md R281). -/
def collectUnits (part : List Byte) : List Beat → List (List Byte) × List Byte
  | [] => ([], part)
  | b :: bs =>
    let got := if b.empty then part else part ++ [b.data]
    if b.eou then (got :: (collectUnits [] bs).1, (collectUnits [] bs).2) else collectUnits got bs

/-- The units of a beat list, from a unit boundary on. -/
def unitsOfBeats (bs : List Beat) : List (List Byte) × List Byte := collectUnits [] bs

end Sys2Proof.Machine
end

