-- ==== Sys2Proof/Safety.lean ====
section
/-! DEFINITION. What claims about steps and whole runs are stated in: which part of the state two states
agree on, and the invariant of every reachable state (10_state.md R26, R32, R35 to R38, R41,
40_command_interface.md R132). -/

namespace Sys2Proof.Machine

/-- The two states agree on the parameter registers (10_state.md R21). -/
structure SameParams (s t : State) : Prop where
  legacySeg : t.legacySeg = s.legacySeg
  ctrlCode  : t.ctrlCode = s.ctrlCode
  dst       : t.dst = s.dst
  src       : t.src = s.src
  len       : t.len = s.len

/-- The two states agree on the command in progress and its report: phase, lat, inbuf, outq, the STATUS
fields and UNITS (10_state.md R26, R32, R35 to R38). -/
structure SameCommand (s t : State) : Prop where
  phase   : t.phase = s.phase
  lat     : t.lat = s.lat
  inbuf   : t.inbuf = s.inbuf
  outq    : t.outq = s.outq
  done    : t.done = s.done
  err     : t.err = s.err
  errCode : t.errCode = s.errCode
  units   : t.units = s.units

/-- The two states agree on the whole block (10_state.md R20). -/
structure SameBlock (s t : State) : Prop where
  params  : SameParams s t
  command : SameCommand s t

/-- The two states agree on what the host holds of the streams and of its reads
(10_state.md R39, 30_encoding.md R84). -/
structure SameStreams (s t : State) : Prop where
  hostIn  : t.hostIn = s.hostIn
  hostOut : t.hostOut = s.hostOut
  reads   : t.reads = s.reads

/-- `k` steps, stopping at the first that does not go on: `Host.Core.run` of this machine, over `State`
itself (`steps_eq_run`). -/
def steps : Nat → State → Host.Outcome State Fault Refusal
  | 0, s => .next s
  | k + 1, s =>
    match step s with
    | .next t => steps k t
    | .fault r => .fault r
    | .refused r => .refused r

/-- What holds in every reachable state. -/
structure Inv (s : State) : Prop where
  /-- R41 item 1, R37, R38. -/
  idle_empty : s.phase = .idle → s.inbuf = [] ∧ s.outq = []
  /-- R41 item 2, R38. -/
  load_short : s.phase = .load → s.inbuf.length < s.lat.len ∧ s.outq = []
  /-- R41 item 3; what is left of the command's output is its tail. -/
  emit_rest : s.phase = .emit →
    s.outq ≠ [] ∧ s.inbuf.length = s.lat.len ∧ s.outq <:+ beats (result s.lat s.inbuf)
  /-- R41 item 4, R26. -/
  busy_flags : s.phase ≠ .idle → s.done = false ∧ s.err = false
  /-- R26: DONE and ERR are never both 1. -/
  not_done_and_err : ¬(s.done = true ∧ s.err = true)
  /-- R26: ERRCODE is 0 exactly when ERR = 0. -/
  err_code : s.err = false ↔ s.errCode = .none
  /-- R14, R31, R37: an accepted length is within MAX_LEN, and within 250 for BUILD_FRAME. -/
  busy_len : s.phase ≠ .idle →
    s.lat.len ≤ Config.maxLen ∧ (s.lat.op = .buildFrame → s.lat.len ≤ segMax)
  /-- R32, R132: UNITS is the running command's unit count. -/
  busy_units : s.phase ≠ .idle → s.units.toNat = unitCount s.lat.op s.lat.len s.lat.legacy
  /-- R32: a rejection leaves UNITS 0. -/
  err_units : s.err = true → s.units = 0#32

end Sys2Proof.Machine
end

