-- ==== Sys2Proof/Certificates/Slice0/Obligations.lean ====
section
/-! DEFINITION. The statements for the provers. Each docstring says which rule of spec/ it formalises; "the
spec's inference" marks what the spec itself derives, and "the model's" what a log entry of this model chose. -/

open Sys2Proof
open Sys2Proof.Machine

/-! ## Command words and the register window -/

/-- R80: the four match patterns decode to their commands, OP 0x0 and 0x5 to 0xF and a set reserved bit to
an illegal word. -/
def Obligations.CommandWordsDecode : Prop :=
  decode 0x00000001#32 = .ok .buildFrames ∧ decode 0x00000002#32 = .ok .fragment ∧
  decode 0x00000003#32 = .ok .buildFrame ∧ decode 0x00000004#32 = .ok .checksum ∧
  decode 0x00000000#32 = .error .noSuchOp ∧
  (∀ op ∈ [5, 6, 7, 8, 9, 10, 11, 12, 13, 14, 15], decode (BitVec.ofNat 32 op) = .error .noSuchOp) ∧
  (∀ k ∈ List.range 28, decode (0x00000001#32 ||| (0x10#32 <<< k)) = .error .reservedBits)

/-- R81: the reserved bits decide first, then OP. -/
def Obligations.DecodeReadsReservedBitsThenOp : Prop :=
  ∀ v : Word,
    (v.toNat / 16 ≠ 0 → decode v = .error .reservedBits) ∧
    (v.toNat / 16 = 0 →
      (v.toNat % 16 = 1 → decode v = .ok .buildFrames) ∧
      (v.toNat % 16 = 2 → decode v = .ok .fragment) ∧
      (v.toNat % 16 = 3 → decode v = .ok .buildFrame) ∧
      (v.toNat % 16 = 4 → decode v = .ok .checksum) ∧
      (v.toNat % 16 = 0 ∨ 5 ≤ v.toNat % 16 → decode v = .error .noSuchOp))

/-- R80: the word of every well-formed command decodes to that command. -/
def Obligations.DecodeOfEncode : Prop :=
  ∀ i : Instr, i.wf = true → decode (encode i) = .ok i

/-- R82: a word is the word of exactly one command, or it is illegal and in IDLE rejected with ILLEGAL_CMD,
whose code is 1. -/
def Obligations.EveryOtherWordIsIllegal : Prop :=
  ErrCode.illegalCmd.code = 1#4 ∧
  encode .buildFrames = 0x00000001#32 ∧ encode .fragment = 0x00000002#32 ∧
  encode .buildFrame = 0x00000003#32 ∧ encode .checksum = 0x00000004#32 ∧
  ∀ v : Word,
    (∃ i, v = encode i ∧ decode v = .ok i ∧ ∀ j, v = encode j → j = i) ∨
    ((∀ i, v ≠ encode i) ∧ (∃ e, decode v = .error e) ∧
      ∀ s : State, s.phase = .idle → regWrite 0x00 v s =
        .next { s with err := true, errCode := .illegalCmd, done := false, units := 0#32 })

/-- The offsets of the address map (R63): every register is found at its own offset, the offsets are
distinct, and 0x20 to 0x3C hold none. -/
def Obligations.RegisterWindowMap : Prop :=
  Reg.cmd.offset = 0x00 ∧ Reg.status.offset = 0x04 ∧ Reg.config.offset = 0x08 ∧
  Reg.ctrlCode.offset = 0x0C ∧ Reg.dst.offset = 0x10 ∧ Reg.src.offset = 0x14 ∧
  Reg.len.offset = 0x18 ∧ Reg.units.offset = 0x1C ∧
  (∀ (off : Nat) (r : Reg), regAt off = some r ↔ off = r.offset) ∧
  (∀ off : Nat, 0x20 ≤ off → regAt off = none)

/-- R61: what a register write does, at every offset and in every state. -/
def Obligations.RegisterWriteEffects : Prop :=
  ∀ (v : Word) (s : State),
    regWrite 0x00 v s = (match decode v with
      | .ok i => exec i s
      | .error _ => .next (illegalCommand s)) ∧
    regWrite 0x08 v s = .next { s with legacySeg := v.getLsbD 0 } ∧
    regWrite 0x0C v s = .next { s with ctrlCode := v.extractLsb' 0 8 } ∧
    regWrite 0x10 v s = .next { s with dst := v } ∧
    regWrite 0x14 v s = .next { s with src := v } ∧
    regWrite 0x18 v s = .next { s with len := v } ∧
    (∀ off : Nat, off = 0x04 ∨ off = 0x1C ∨ 0x20 ≤ off → regWrite off v s = .next s)

/-- What a register read returns (R62), and that it changes nothing but the host's record of reads: the
record is R84's "the value is recorded", and its place in State is the model's choice (log 3). -/
def Obligations.RegisterReadValues : Prop :=
  ∀ s : State,
    regRead 0x00 s = 0#32 ∧ regRead 0x04 s = s.status ∧
    regRead 0x08 s = (if s.legacySeg = true then 1#32 else 0#32) ∧
    (regRead 0x0C s).toNat = s.ctrlCode.toNat ∧
    regRead 0x10 s = s.dst ∧ regRead 0x14 s = s.src ∧ regRead 0x18 s = s.len ∧ regRead 0x1C s = s.units ∧
    (∀ off : Nat, 0x20 ≤ off → regRead off s = 0#32) ∧
    (∀ off : Nat, off % 4 = 0 → off ≤ 0x3C →
      hostOp (.rd .word off) s = .next { s with reads := s.reads ++ [regRead off s] })

/-- The field table of STATUS (R26) and the codes of R250. -/
def Obligations.StatusFieldLayout : Prop :=
  (∀ s : State,
    s.status.getLsbD 0 = decide (s.phase ≠ .idle) ∧ s.status.getLsbD 1 = s.done ∧
    s.status.getLsbD 2 = s.err ∧ s.status.getLsbD 3 = false ∧
    s.status.extractLsb' 4 4 = s.errCode.code ∧
    s.status.extractLsb' 8 2 = (match s.phase with | .idle => 0#2 | .load => 1#2 | .emit => 2#2) ∧
    s.status.extractLsb' 10 22 = 0#22) ∧
  ErrCode.none.code = 0#4 ∧ ErrCode.illegalCmd.code = 1#4 ∧ ErrCode.dstRange.code = 2#4 ∧
  ErrCode.srcRange.code = 3#4 ∧ ErrCode.lenRange.code = 4#4 ∧ ErrCode.capacity.code = 5#4

/-- R60: the port admits exactly the aligned 32-bit accesses at 0x00 to 0x3C, and sub-word and misaligned
ones are refused. That an access above 0x3C is refused too is the model's reading of R60 (log 2), and the
place of the recorded read in State is the model's choice (log 3). An admitted access is the register write or
read itself. -/
def Obligations.PortAdmitsAlignedWordsOnly : Prop :=
  ∀ (w : Width) (off : Nat) (v : Word) (s : State),
    ((w ≠ .word ∨ off % 4 ≠ 0 ∨ 0x3C < off) →
      (∃ r, hostOp (.wr w off v) s = .refused r) ∧ (∃ r, hostOp (.rd w off) s = .refused r)) ∧
    (w = .word → off % 4 = 0 → off ≤ 0x3C →
      hostOp (.wr w off v) s = regWrite off v s ∧ (∃ t, regWrite off v s = .next t) ∧
      hostOp (.rd w off) s = .next { s with reads := s.reads ++ [regRead off s] })

/-! ## Evaluating a command word -/

/-- R122: a CMD write in IDLE tests the conditions in this order, and rejects or accepts. -/
def Obligations.CommandEvaluationOrder : Prop :=
  ∀ (v : Word) (s : State), s.phase = .idle →
    regWrite 0x00 v s = .next (match decode v with
      | .error _ => reject .illegalCmd s
      | .ok i =>
        if (i = .buildFrame ∨ i = .buildFrames) ∧ 0xFFFF < s.dst.toNat then reject .dstRange s
        else if (i = .buildFrame ∨ i = .buildFrames) ∧ 0xFFFF < s.src.toNat then reject .srcRange s
        else if i = .buildFrame ∧ 250 < s.len.toNat then reject .lenRange s
        else if Config.maxLen < s.len.toNat then reject .capacity s
        else accept i s)

/-- R123: a rejection sets ERR, its code, DONE = 0 and UNITS = 0, and changes nothing else: phase, lat, inbuf,
outq, the parameter registers and the streams are as before. A CMD write in IDLE that leaves ERR set is a
rejection with a code other than NONE. -/
def Obligations.RejectionIsPrecise : Prop :=
  (∀ (c : ErrCode) (s : State),
    reject c s = { s with err := true, errCode := c, done := false, units := 0#32 }) ∧
  ∀ (v : Word) (s t : State), s.phase = .idle → regWrite 0x00 v s = .next t → t.err = true →
    ∃ c, c ≠ .none ∧ t = reject c s ∧ t = { s with err := true, errCode := c, done := false, units := 0#32 }

/-- R257: the code reported is the first cause that applies, in the order ILLEGAL_CMD, DST_RANGE,
SRC_RANGE, LEN_RANGE, CAPACITY; no cause, no rejection. -/
def Obligations.FirstApplicableCauseIsReported : Prop :=
  ∀ (v : Word) (s t : State), s.phase = .idle → regWrite 0x00 v s = .next t →
    let addressed := decode v = .ok .buildFrame ∨ decode v = .ok .buildFrames
    let illegal := ∃ e, decode v = .error e
    let dstBad := addressed ∧ 0xFFFF < s.dst.toNat
    let srcBad := addressed ∧ 0xFFFF < s.src.toNat
    let lenBad := decode v = .ok .buildFrame ∧ 250 < s.len.toNat
    let capBad := Config.maxLen < s.len.toNat
    (t.errCode = .illegalCmd ↔ illegal) ∧
    (t.errCode = .dstRange ↔ ¬illegal ∧ dstBad) ∧
    (t.errCode = .srcRange ↔ ¬illegal ∧ ¬dstBad ∧ srcBad) ∧
    (t.errCode = .lenRange ↔ ¬illegal ∧ ¬dstBad ∧ ¬srcBad ∧ lenBad) ∧
    (t.errCode = .capacity ↔ ¬illegal ∧ ¬dstBad ∧ ¬srcBad ∧ ¬lenBad ∧ capBad) ∧
    (t.errCode = .none ↔ ¬illegal ∧ ¬dstBad ∧ ¬srcBad ∧ ¬lenBad ∧ ¬capBad)

/-- R124: an acceptance latches the operands, clears ERR, ERRCODE and DONE, sets UNITS, empties inbuf and
leaves LOAD, or EMIT with the output computed when LEN = 0; nothing else changes. FRAGMENT and CHECKSUM never
read the control code and the addresses they latch. -/
def Obligations.AcceptanceLatchesOperands : Prop :=
  (∀ (lat : Latched) (c : Byte) (d r : Half) (data : List Byte), lat.op = .fragment ∨ lat.op = .checksum →
    result { lat with ctrl := c, dst := d, src := r } data = result lat data) ∧
  ∀ (i : Instr) (s : State), s.phase = .idle →
    (i = .buildFrame ∨ i = .buildFrames → s.dst.toNat ≤ 0xFFFF ∧ s.src.toNat ≤ 0xFFFF) →
    (i = .buildFrame → s.len.toNat ≤ 250) → s.len.toNat ≤ Config.maxLen →
    let t : State := { s with
      lat := { op := i, legacy := s.legacySeg, ctrl := s.ctrlCode, dst := s.dst.extractLsb' 0 16,
               src := s.src.extractLsb' 0 16, len := s.len.toNat }
      err := false
      errCode := .none
      done := false
      units := BitVec.ofNat 32 (unitCount i s.len.toNat s.legacySeg)
      inbuf := [] }
    exec i s = .next (if s.len.toNat = 0 then finishLoad t else { t with phase := .load })

/-- BUILD_FRAMES completes (R231, R122, R124): in IDLE, with both addresses and LEN in range, it is accepted;
with LEN = 0 its one frame is ready at once. -/
def Obligations.BuildFramesIsAccepted : Prop :=
  ∀ s : State, s.phase = .idle → s.dst.toNat ≤ 0xFFFF → s.src.toNat ≤ 0xFFFF →
    s.len.toNat ≤ Config.maxLen →
    let d := s.dst.extractLsb' 0 16
    let r := s.src.extractLsb' 0 16
    let t : State := { s with
      lat := { op := .buildFrames, legacy := s.legacySeg, ctrl := s.ctrlCode, dst := d, src := r, len := s.len.toNat }
      err := false
      errCode := .none
      done := false
      units := BitVec.ofNat 32 (segCount s.len.toNat s.legacySeg)
      inbuf := [] }
    exec .buildFrames s = .next (if s.len.toNat = 0
      then { t with outq := beats (buildFrames [] s.ctrlCode d r s.legacySeg), phase := .emit }
      else { t with phase := .load })

/-- FRAGMENT completes (R156, R122, R124): in IDLE with LEN in range, whatever DST and SRC hold. -/
def Obligations.FragmentIsAccepted : Prop :=
  ∀ s : State, s.phase = .idle → s.len.toNat ≤ Config.maxLen →
    let t : State := { s with
      lat := { op := .fragment, legacy := s.legacySeg, ctrl := s.ctrlCode, dst := s.dst.extractLsb' 0 16,
               src := s.src.extractLsb' 0 16, len := s.len.toNat }
      err := false
      errCode := .none
      done := false
      units := BitVec.ofNat 32 (segCount s.len.toNat s.legacySeg)
      inbuf := [] }
    exec .fragment s = .next (if s.len.toNat = 0
      then { t with outq := [{ data := 0x00#8, eou := true, eom := true, empty := true }], phase := .emit }
      else { t with phase := .load })

/-- BUILD_FRAME completes (R186, R122, R124): in IDLE with both addresses in range and LEN at most 250;
CAPACITY cannot arise, since MAX_LEN is at least 250 (R14). -/
def Obligations.BuildFrameIsAccepted : Prop :=
  ∀ s : State, s.phase = .idle → s.dst.toNat ≤ 0xFFFF → s.src.toNat ≤ 0xFFFF → s.len.toNat ≤ 250 →
    let d := s.dst.extractLsb' 0 16
    let r := s.src.extractLsb' 0 16
    let t : State := { s with
      lat := { op := .buildFrame, legacy := s.legacySeg, ctrl := s.ctrlCode, dst := d, src := r, len := s.len.toNat }
      err := false
      errCode := .none
      done := false
      units := 1#32
      inbuf := [] }
    exec .buildFrame s = .next (if s.len.toNat = 0
      then { t with outq := beats [frame [] s.ctrlCode d r], phase := .emit }
      else { t with phase := .load })

/-- CHECKSUM completes (R213, R122, R124): in IDLE with LEN in range; with LEN = 0 the checksum of the empty
input is ready at once (R214: no sentinel). -/
def Obligations.ChecksumIsAccepted : Prop :=
  ∀ s : State, s.phase = .idle → s.len.toNat ≤ Config.maxLen →
    let t : State := { s with
      lat := { op := .checksum, legacy := s.legacySeg, ctrl := s.ctrlCode, dst := s.dst.extractLsb' 0 16,
               src := s.src.extractLsb' 0 16, len := s.len.toNat }
      err := false
      errCode := .none
      done := false
      units := 1#32
      inbuf := [] }
    exec .checksum s = .next (if s.len.toNat = 0
      then { t with
        outq := [{ data := (Config.crc16 []).extractLsb' 0 8, eou := false, eom := false, empty := false },
                 { data := (Config.crc16 []).extractLsb' 8 8, eou := true, eom := true, empty := false }]
        phase := .emit }
      else { t with phase := .load })

/-- R129: a CMD write in LOAD or EMIT is ignored, whatever its word. -/
def Obligations.BusyBlockIgnoresCommands : Prop :=
  ∀ (v : Word) (s : State), s.phase ≠ .idle → regWrite 0x00 v s = .next s

/-- The frame of the four commands (BUILD_FRAMES, FRAGMENT, BUILD_FRAME, CHECKSUM), accepted, rejected or
ignored: the parameter registers, the streams' contents on the host's side and the rest of the host stay
(R123, R124, R129; the block has no memory). -/
def Obligations.CommandsLeaveParametersAndStreams : Prop :=
  ∀ (i : Instr) (s t : State), exec i s = .next t →
    SameParams s t ∧ SameStreams s t ∧ t.prog = s.prog ∧ t.turns = s.turns ∧
    t.resetCount = s.resetCount

/-- R121: what a CMD write in IDLE reports and starts depends on the word, the parameter registers and
MAX_LEN only: not on anything an earlier command left. -/
def Obligations.EvaluationReadsOnlyParameters : Prop :=
  ∀ (v : Word) (s₁ s₂ t₁ t₂ : State), s₁.phase = .idle → s₂.phase = .idle → SameParams s₁ s₂ →
    regWrite 0x00 v s₁ = .next t₁ → regWrite 0x00 v s₂ = .next t₂ →
    t₂.status = t₁.status ∧ t₂.units = t₁.units ∧ t₂.phase = t₁.phase ∧
    (t₁.err = false → t₂.lat = t₁.lat ∧ t₂.inbuf = t₁.inbuf ∧ (t₁.phase = .emit → t₂.outq = t₁.outq))

/-! ## Streams -/

/-- R125: the output is computed in the same step as the last IN transfer, or in the CMD write when
LEN = 0: outq becomes the beats of the result, which is not empty, and the phase EMIT. -/
def Obligations.OutputIsComputedAtLastByte : Prop :=
  (∀ (s : State) (b : Byte) (rest : List Byte), s.phase = .load → s.hostIn = b :: rest →
    s.inbuf.length + 1 = s.lat.len →
    inTransfer s = { s with
      hostIn := rest
      inbuf := s.inbuf ++ [b]
      outq := beats (result s.lat (s.inbuf ++ [b]))
      phase := .emit }) ∧
  (∀ (i : Instr) (s t : State), s.phase = .idle → s.len.toNat = 0 → exec i s = .next t → t.err = false →
    t.phase = .emit ∧ t.inbuf = [] ∧ t.outq = beats (result t.lat [])) ∧
  (∀ (lat : Latched) (data : List Byte), result lat data ≠ [] ∧ beats (result lat data) ≠ [])

/-- R126 (its pseudocode): an IN transfer takes the oldest offered byte in LOAD, and is not enabled
otherwise. A turn given to a transfer that is not enabled changes nothing (the model's, log 1). -/
def Obligations.InputTransferTakesOldestByte : Prop :=
  (∀ (s : State) (b : Byte) (rest : List Byte), s.phase = .load → s.hostIn = b :: rest →
    inTransfer s = (if s.inbuf.length + 1 = s.lat.len
      then finishLoad { s with hostIn := rest, inbuf := s.inbuf ++ [b] }
      else { s with hostIn := rest, inbuf := s.inbuf ++ [b] })) ∧
  (∀ s : State, s.phase ≠ .load ∨ s.hostIn = [] → inTransfer s = s)

/-- R127: an OUT transfer delivers the oldest beat; with the last one the block returns to IDLE with DONE,
and that last one is exactly the beat with eom = 1. That an OUT transfer outside EMIT, which is not enabled,
changes nothing is the model's choice (log 1). -/
def Obligations.OutputTransferDeliversOldestBeat : Prop :=
  (∀ (s : State) (b : Beat) (rest : List Beat), s.phase = .emit → s.outq = b :: rest →
    outTransfer s = (if rest = []
      then { s with outq := [], hostOut := s.hostOut ++ [b], phase := .idle, inbuf := [], done := true }
      else { s with outq := rest, hostOut := s.hostOut ++ [b] })) ∧
  (∀ s : State, s.phase ≠ .emit → outTransfer s = s) ∧
  (∀ (s : State) (b : Beat), Inv s → offeredBeat s = some b →
    ((outTransfer s).done = true ↔ b.eom = true))

/-- R131: outside LOAD no byte is taken and the offered bytes wait in order; they are the first input of
the next command that is accepted with LEN > 0. -/
def Obligations.EarlyBytesWaitForNextCommand : Prop :=
  (∀ s : State, s.phase = .idle ∨ s.phase = .emit → inTransfer s = s) ∧
  (∀ (b : Byte) (s : State), offer b s = { s with hostIn := s.hostIn ++ [b] }) ∧
  (∀ (i : Instr) (s t : State) (b : Byte) (rest : List Byte), s.phase = .idle → s.hostIn = b :: rest →
    exec i s = .next t → t.err = false → 0 < s.len.toNat →
    (inTransfer t).inbuf = [b] ∧ (inTransfer t).hostIn = rest)

/-- R96 (its equations): the beats of a unit list, unit by unit and byte by byte. -/
def Obligations.BeatsOfUnitsByIndex : Prop :=
  (∀ (u : List Byte) (last : Bool), unitBeats u last =
    if u.length = 0 then [{ data := 0x00#8, eou := true, eom := last, empty := true }]
    else (List.range u.length).map fun j =>
      { data := u.getD j 0#8, eou := decide (j = u.length - 1),
        eom := decide (j = u.length - 1) && last, empty := false }) ∧
  (∀ us : List (List Byte), us ≠ [] → beats us =
    (List.range us.length).flatMap fun k => unitBeats (us.getD k []) (decide (k = us.length - 1)))

/-- The spec's inference in R96 and R132 ("[derived: …]"): UNITS counts the units and the eou beats of a
command, and exactly one beat, the last, has eom = 1. -/
def Obligations.UnitsCountsTheEouBeats : Prop :=
  ∀ (lat : Latched) (data : List Byte), data.length = lat.len →
    (result lat data).length = unitCount lat.op lat.len lat.legacy ∧
    ((beats (result lat data)).filter (·.eou)).length = unitCount lat.op lat.len lat.legacy ∧
    ((beats (result lat data)).filter (·.eom)).length = 1 ∧
    ((beats (result lat data)).getLast?.map (·.eom)) = some true

/-- R95 with R94 ("OUT marks each unit's boundary explicitly (rule R95), so the host never has to parse
lengths"): the units, empty ones included, are read back from the beats. `unitsOfBeats` is the model's reading. -/
def Obligations.UnitsAreReadBackFromBeats : Prop :=
  ∀ us : List (List Byte), us ≠ [] → unitsOfBeats (beats us) = (us, [])

/-- R95: the packing of a beat, and that of a command's beats eom implies eou, and the only empty unit is
that of FRAGMENT with an empty input, one beat with data 0x00, eou and eom. -/
def Obligations.BeatEncoding : Prop :=
  (∀ b : Beat, b.pack.extractLsb' 0 8 = b.data ∧ b.pack.getLsbD 8 = b.eou ∧
    b.pack.getLsbD 9 = b.eom ∧ b.pack.getLsbD 10 = b.empty) ∧
  (∀ (lat : Latched) (data : List Byte) (b : Beat), b ∈ beats (result lat data) →
    (b.eom = true → b.eou = true) ∧
    (b.empty = true → lat.op = .fragment ∧ data = [] ∧
      b = { data := 0x00#8, eou := true, eom := true, empty := true }))

/-! ## Segments -/

/-- R87: the fields of the sequence byte for n > 1, and that a single segment has none. -/
def Obligations.SequenceByteFields : Prop :=
  (∀ i n : Nat, 1 < n → i < n →
    ((seqByte i n).extractLsb' 0 6).toNat = i % 64 ∧
    (seqByte i n).getLsbD 6 = decide (i = 0) ∧ (seqByte i n).getLsbD 7 = decide (i = n - 1)) ∧
  (∀ (data : List Byte) (legacy : Bool), segCount data.length legacy = 1 → fragment data legacy = [data])

/-- R152, R153: the two counts, by what ceil means (R16), and which CONFIG selects. -/
def Obligations.SegmentCountsPerMode : Prop :=
  (∀ L : Nat, segCount L true = segCountLegacy L ∧ segCount L false = segCountCorrected L) ∧
  State.reset.legacySeg = true ∧
  segCountLegacy 0 = 1 ∧
  (∀ L : Nat, 0 < L → 250 * (segCountLegacy L - 1) < L ∧ L ≤ 250 * segCountLegacy L) ∧
  (∀ L : Nat, L ≤ 250 → segCountCorrected L = 1) ∧
  (∀ L : Nat, 250 < L → 249 * (segCountCorrected L - 1) < L ∧ L ≤ 249 * segCountCorrected L)

/-- R155: one segment is the data unchanged; of several, segment i is its sequence byte and the slice
of at most 249 bytes from 249 i on. -/
def Obligations.FragmentSlicesInOrder : Prop :=
  ∀ (data : List Byte) (legacy : Bool),
    (segCount data.length legacy = 1 → fragment data legacy = [data]) ∧
    (segCount data.length legacy ≠ 1 →
      (fragment data legacy).length = segCount data.length legacy ∧
      ∀ i, i < segCount data.length legacy → (fragment data legacy)[i]? =
        some (seqByte i (segCount data.length legacy) :: (data.drop (249 * i)).take 249))

/-- The spec's inference in R157 and R158: the length of every segment of a message of several. -/
def Obligations.SegmentLengths : Prop :=
  ∀ (data seg : List Byte) (legacy : Bool) (i : Nat), 250 < data.length →
    (fragment data legacy)[i]? = some seg →
    seg.length = 1 + min 249 (data.length - 249 * i) ∧ 2 ≤ seg.length ∧ seg.length ≤ 250 ∧
    (i + 1 < segCount data.length legacy → seg.length = 250)

/-- The spec's inference in R160: corrected segmentation loses nothing. -/
def Obligations.CorrectedModeLosesNothing : Prop :=
  ∀ data : List Byte,
    (data.length ≤ 250 → fragment data false = [data]) ∧
    (250 < data.length → ((fragment data false).map List.tail).flatten = data)

/-- The spec's inference in R159: legacy segmentation keeps exactly the first 249 n bytes, and loses at most
n, iff L lies in [249 n + 1, 250 n]. -/
def Obligations.LegacyModeLosesExactlyTheTail : Prop :=
  ∀ data : List Byte, 2 ≤ segCountLegacy data.length →
    ((fragment data true).map List.tail).flatten = data.take (249 * segCountLegacy data.length) ∧
    data.length - 249 * segCountLegacy data.length ≤ segCountLegacy data.length ∧
    (((fragment data true).map List.tail).flatten ≠ data ↔
      249 * segCountLegacy data.length + 1 ≤ data.length ∧ data.length ≤ 250 * segCountLegacy data.length)

/-- The spec's inference in R161: FIRST on the first segment only, LAST on the last only, never both. -/
def Obligations.BoundaryFlagsMarkTheEnds : Prop :=
  ∀ (data seg : List Byte) (legacy : Bool) (i : Nat), 250 < data.length →
    (fragment data legacy)[i]? = some seg →
    (seg.getD 0 0#8).getLsbD 6 = decide (i = 0) ∧
    (seg.getD 0 0#8).getLsbD 7 = decide (i = segCount data.length legacy - 1) ∧
    ¬((seg.getD 0 0#8).getLsbD 6 = true ∧ (seg.getD 0 0#8).getLsbD 7 = true)

/-- The spec's inference in R163: the two modes agree exactly when legacy segmentation drops nothing. -/
def Obligations.ModesAgreeIffNothingIsLost : Prop :=
  ∀ data : List Byte,
    (fragment data true = fragment data false ↔
      data.length ≤ 250 ∨ data.length ≤ 249 * segCountLegacy data.length) ∧
    (segCountLegacy data.length < segCountCorrected data.length ↔
      250 < data.length ∧ 249 * segCountLegacy data.length < data.length)

/-! ## Frames and checksums -/

/-- R89, R181: the eight header bytes. -/
def Obligations.HeaderByteOffsets : Prop :=
  ∀ (s : Nat) (c : Byte) (d r : Half), s ≤ 250 →
    (header s c d r).length = 8 ∧
    (header s c d r).getD 0 0#8 = Config.sync0 ∧ (header s c d r).getD 1 0#8 = Config.sync1 ∧
    ((header s c d r).getD 2 0#8).toNat = s + 5 ∧ (header s c d r).getD 3 0#8 = c ∧
    ((header s c d r).getD 4 0#8).toNat = d.toNat % 256 ∧ ((header s c d r).getD 5 0#8).toNat = d.toNat / 256 ∧
    ((header s c d r).getD 6 0#8).toNat = r.toNat % 256 ∧ ((header s c d r).getD 7 0#8).toNat = r.toNat / 256

/-- R90: the frame is the header, its checksum, then every chunk and its checksum; the chunks partition the
segment into pieces of 16 bytes, the last perhaps shorter; an empty segment's frame is 10 bytes. -/
def Obligations.FrameByteLayout : Prop :=
  ∀ (seg : List Byte) (c : Byte) (d r : Half), seg.length ≤ 250 →
    (frame seg c d r).take 8 = header seg.length c d r ∧
    ((frame seg c d r).getD 8 0#8).toNat = (Config.crc16 (header seg.length c d r)).toNat % 256 ∧
    ((frame seg c d r).getD 9 0#8).toNat = (Config.crc16 (header seg.length c d r)).toNat / 256 ∧
    (frame seg c d r).drop 10 = (List.range (ceilDiv seg.length 16)).flatMap (fun k =>
      (seg.drop (16 * k)).take 16 ++ le16 (Config.crc16 ((seg.drop (16 * k)).take 16))) ∧
    (chunks seg).length = ceilDiv seg.length 16 ∧ (chunks seg).flatten = seg ∧
    (∀ k ch, (chunks seg)[k]? = some ch → k + 1 < ceilDiv seg.length 16 → ch.length = 16) ∧
    (seg = [] → (frame seg c d r).length = 10)

/-- The spec's inference in R91 and R188: the length of a frame, and the segment length in its byte 2. -/
def Obligations.FrameLengthAccounting : Prop :=
  ∀ (seg : List Byte) (c : Byte) (d r : Half), seg.length ≤ 250 →
    (frame seg c d r).length = 10 + seg.length + 2 * ceilDiv seg.length 16 ∧
    (frame seg c d r).length ≤ 292 ∧
    statedLength (frame seg c d r) = seg.length ∧
    frameLength (statedLength (frame seg c d r)) = (frame seg c d r).length

/-- The spec's inference in R189: removing the checksums gives the segment back. -/
def Obligations.SegmentIsReadBackFromFrame : Prop :=
  ∀ (seg : List Byte) (c : Byte) (d r : Half), seg.length ≤ 250 → segmentOf (frame seg c d r) = seg

/-- The spec's inference in R92: where chunk k and its checksum stand in a frame. -/
def Obligations.ChunkOffsetsInFrame : Prop :=
  ∀ (seg : List Byte) (c : Byte) (d r : Half) (k : Nat), seg.length ≤ 250 → k < ceilDiv seg.length 16 →
    ((frame seg c d r).drop (10 + 18 * k)).take (min 16 (seg.length - 16 * k)) = (seg.drop (16 * k)).take 16 ∧
    ((frame seg c d r).drop (10 + 18 * k + min 16 (seg.length - 16 * k))).take 2 =
      le16 (Config.crc16 ((seg.drop (16 * k)).take 16))

/-- The spec's inference in R187 and R216: the size of every chunk, never 0; no chunk iff no byte. -/
def Obligations.ChunkSizes : Prop :=
  ∀ seg : List Byte,
    (∀ k ch, (chunks seg)[k]? = some ch → ch.length = min 16 (seg.length - 16 * k) ∧ 0 < ch.length) ∧
    (chunks seg = [] ↔ seg = [])

/-- R93, R212: a checksum is two bytes, the low byte of crc16 of the whole input first, and is the one unit
CHECKSUM returns. -/
def Obligations.ChecksumIsTwoBytesLowFirst : Prop :=
  ∀ (data : List Byte) (lat : Latched), lat.op = .checksum →
    result lat data = [checksum data] ∧ (checksum data).length = 2 ∧
    ((checksum data).getD 0 0#8).toNat = (Config.crc16 data).toNat % 256 ∧
    ((checksum data).getD 1 0#8).toNat = (Config.crc16 data).toNat / 256

/-- R230, with the spec's inference in R232 and R233: one frame per segment in order; all carry the same
control code and addresses; no length byte exceeds 255, no frame 292 bytes, and all but the last are full. -/
def Obligations.BuildFramesFramesEverySegment : Prop :=
  ∀ (data : List Byte) (c : Byte) (d r : Half) (legacy : Bool),
    (buildFrames data c d r legacy).length = segCount data.length legacy ∧
    ∀ i f, (buildFrames data c d r legacy)[i]? = some f →
      (∃ seg, (fragment data legacy)[i]? = some seg ∧ f = frame seg c d r ∧
        (f.getD 2 0#8).toNat = seg.length + 5) ∧
      (f.take 8).drop 3 = c :: (le16 d ++ le16 r) ∧ f.length ≤ 292 ∧
      (i + 1 < segCount data.length legacy → f.length = 292 ∧ f.getD 2 0#8 = 0xFF#8)

/-- The spec's inference in R234: how many beats BUILD_FRAMES delivers, none of them empty. -/
def Obligations.BuildFramesBeatCount : Prop :=
  ∀ (data : List Byte) (c : Byte) (d r : Half) (legacy : Bool),
    (beats (buildFrames data c d r legacy)).length =
      ((fragment data legacy).map fun seg => 10 + seg.length + 2 * ceilDiv seg.length 16).sum ∧
    ∀ b ∈ beats (buildFrames data c d r legacy), b.empty = false

/-! ## Reset -/

/-- R42: the reset values (none is stated for lat, which is unspecified). -/
def Obligations.ResetValues : Prop :=
  let s := State.reset
  s.done = false ∧ s.err = false ∧ s.errCode.code = 0#4 ∧ s.status = 0#32 ∧ s.legacySeg = true ∧
  s.ctrlCode = 0x44#8 ∧ s.dst = 0#32 ∧ s.src = 0#32 ∧ s.len = 0#32 ∧ s.units = 0#32 ∧
  s.phase = .idle ∧ s.inbuf = [] ∧ s.outq = []

/-- R280, R281: reset sets every state element to its reset value in one step, at any time; the beats
already delivered and the bytes offered stay with the host. -/
def Obligations.ResetAbandonsTheCommand : Prop :=
  ∀ (s : State) (ts : List Turn), s.turns = .reset :: ts →
    ∃ t, step s = .next t ∧ t.phase = .idle ∧ t.inbuf = [] ∧ t.outq = [] ∧
      t.done = false ∧ t.err = false ∧ t.errCode = .none ∧ t.legacySeg = true ∧ t.ctrlCode = 0x44#8 ∧
      t.dst = 0#32 ∧ t.src = 0#32 ∧ t.len = 0#32 ∧ t.units = 0#32 ∧
      t.hostIn = s.hostIn ∧ t.hostOut = s.hostOut

/-- The spec's inference in R283: straight after reset, LEN and BUILD_FRAMES run the defaults: legacy mode,
control code 0x44, both addresses 0. -/
def Obligations.DefaultsStraightAfterReset : Prop :=
  ∀ n : Word, n.toNat ≤ Config.maxLen →
    ∃ s t, regWrite 0x18 n State.reset = .next s ∧ regWrite 0x00 0x00000001#32 s = .next t ∧
      t.phase ≠ .idle ∧ t.err = false ∧
      t.lat = { op := .buildFrames, legacy := true, ctrl := 0x44#8, dst := 0#16, src := 0#16, len := n.toNat }

/-! ## One step of the machine -/

/-- A step runs the decoded command. When the step to come is the host's and the host's next operation
writes to CMD a word that decodes to i, the step is `exec i` once the turn and the operation are gone; and
`withFetchWord` places a word so (how a command comes to the block is the model's, log 3 and log 4). -/
def Obligations.StepRunsTheDecodedCommand : Prop :=
  (∀ (s : State) (ts : List Turn) (p : List HostOp) (v : Word) (i : Instr),
    s.turns = .host :: ts → s.prog = .wr .word 0x00 v :: p → decode v = .ok i →
    step s = exec i { s with turns := ts, prog := p }) ∧
  (∀ (s : State) (w : Nat) (i : Instr), decodeTableWord 32 w = some i →
    step (s.withFetchWord 32 w) = exec i s)

/-- The other steps of R120 as `step` takes them, and that the machine rests when no step is to come (the
order of the steps and the resting are the model's, log 1). -/
def Obligations.StepTakesTheNextTurn : Prop :=
  (∀ (s : State) (ts : List Turn), s.turns = .input :: ts → step s = .next (inTransfer { s with turns := ts })) ∧
  (∀ (s : State) (ts : List Turn) (op : HostOp) (p : List HostOp), s.turns = .host :: ts → s.prog = op :: p →
    step s = hostOp op { s with turns := ts, prog := p }) ∧
  (∀ (s : State) (ts : List Turn), s.turns = .host :: ts → s.prog = [] → step s = .next { s with turns := ts }) ∧
  (∀ s : State, s.turns = [] → step s = .next s)

/-- The host's operations (R84, R85), as the model runs them one step a turn (log 3): PUSH offers its bytes
in order, PULL and PULLALL take the offered beat or wait, PULLALL ends with eom, POLL reads until the
masked value is the wanted one. -/
def Obligations.HostOperations : Prop :=
  (∀ (b : Byte) (s : State), hostOp (.push [b]) s = .next { s with hostIn := s.hostIn ++ [b] }) ∧
  (∀ (b b' : Byte) (bs : List Byte) (s : State), hostOp (.push (b :: b' :: bs)) s =
    .next { s with hostIn := s.hostIn ++ [b], prog := .push (b' :: bs) :: s.prog }) ∧
  (∀ (s : State) (b : Beat), offeredBeat s = some b →
    hostOp .pull s = .next (outTransfer s) ∧
    hostOp .pullAll s = .next (if b.eom = true then outTransfer s
      else { outTransfer s with prog := .pullAll :: s.prog })) ∧
  (∀ s : State, offeredBeat s = none →
    hostOp .pull s = .next { s with prog := .pull :: s.prog } ∧
    hostOp .pullAll s = .next { s with prog := .pullAll :: s.prog }) ∧
  (∀ (off : Nat) (mask val : Word) (s : State), off % 4 = 0 → off ≤ 0x3C →
    hostOp (.poll off mask val) s = .next (if regRead off s &&& mask = val
      then { s with reads := s.reads ++ [regRead off s] }
      else { s with reads := s.reads ++ [regRead off s], prog := .poll off mask val :: s.prog }))

/-- `Inv` holds right after reset (the spec's inference in R41). -/
def Obligations.InvariantHoldsAtReset : Prop := Inv State.reset

/-- The spec's inference in R41 and R26 ("Invariants that hold in every reachable state"), with R32, R37, R38
and R132: every step keeps `Inv`, from every state that has it. -/
def Obligations.EveryStepKeepsTheInvariant : Prop :=
  ∀ s t : State, Inv s → step s = .next t → Inv t

/-- The spec's inference in R135 and R261: once a command is accepted, no step raises an error; nothing of a
frame is ever emitted for a command that fails. -/
def Obligations.NoErrorAfterAcceptance : Prop :=
  ∀ s t : State, Inv s → s.phase ≠ .idle → step s = .next t → t.err = false ∧ t.errCode = .none

/-- R282: only completing the command, the OUT transfer of its last beat, or reset leaves LOAD and EMIT. -/
def Obligations.OnlyCompletionOrResetEndsACommand : Prop :=
  ∀ s t : State, s.phase ≠ .idle → step s = .next t → t.phase = .idle →
    s.turns.head? = some .reset ∨
    (s.phase = .emit ∧ ∃ b, s.outq = [b] ∧ t.hostOut = s.hostOut ++ [b] ∧ t.done = true)

/-- R60 for the whole machine: a step stops exactly when the host's next operation is an access outside the
port's interface; nothing else is refused, and nothing faults (R262). That an access above 0x3C counts among
them and is refused is the model's reading of R60 (log 2). -/
def Obligations.StepStopsOnlyOutsideThePort : Prop :=
  ∀ s : State, (∀ t, step s ≠ .next t) ↔
    ∃ ts op p, s.turns = .host :: ts ∧ s.prog = op :: p ∧ op.wf = false

/-- R32, R36: lat and UNITS are written only when a command word is evaluated in IDLE, or by reset: no other
step of a busy block changes them. -/
def Obligations.LatAndUnitsKeptWhileBusy : Prop :=
  ∀ s t : State, s.phase ≠ .idle → s.turns.head? ≠ some .reset → step s = .next t →
    t.lat = s.lat ∧ t.units = s.units

/-- R130 and the spec's inference in R136: what a running command does next depends on the command and its
input bytes alone. Two busy blocks that agree on the command and on the offered bytes, whatever their
parameter registers and whatever they delivered before, deliver the same beats and stay in agreement. -/
def Obligations.RunningCommandIgnoresTheRest : Prop :=
  ∀ s₁ s₂ t₁ t₂ : State, s₁.phase ≠ .idle → SameCommand s₁ s₂ → s₂.hostIn = s₁.hostIn →
    s₂.turns = s₁.turns → s₂.prog = s₁.prog → s₁.turns.head? ≠ some .reset →
    step s₁ = .next t₁ → step s₂ = .next t₂ →
    SameCommand t₁ t₂ ∧ t₂.hostIn = t₁.hostIn ∧
    ∃ new, t₁.hostOut = s₁.hostOut ++ new ∧ t₂.hostOut = s₂.hostOut ++ new

/-- R285, R286: without input the block stays in LOAD, and while the host takes no beat it stays in EMIT with
its output whole, unless reset comes. That a turn whose transfer is not enabled changes nothing is the model's
choice (log 1). -/
def Obligations.HangsWithoutTheHost : Prop :=
  (∀ s t : State, s.phase = .load → s.hostIn = [] → s.turns.head? ≠ some .reset → step s = .next t →
    t.phase = .load ∧ t.inbuf = s.inbuf ∧ t.lat = s.lat) ∧
  (∀ s t : State, s.phase = .emit → s.turns.head? ≠ some .reset →
    (s.turns.head? = some .host → s.prog.head? ≠ some .pull ∧ s.prog.head? ≠ some .pullAll) →
    step s = .next t → t.phase = .emit ∧ t.outq = s.outq)

/-- The life of a command from IDLE to DONE (R122 to R128, with the spec's inference in R134 to R136): an
accepted command that gets its LEN bytes and whose beats are taken delivers exactly the beats of its
result, takes exactly LEN bytes, and returns to IDLE with DONE. The run is the model's steps (log 1, log 3);
it is stated for every command, every state, every input. -/
def Obligations.AcceptedCommandRunsToCompletion : Prop :=
  ∀ (i : Instr) (s : State) (p : List HostOp) (ts : List Turn), s.phase = .idle →
    (i = .buildFrame ∨ i = .buildFrames → s.dst.toNat ≤ 0xFFFF ∧ s.src.toNat ≤ 0xFFFF) →
    (i = .buildFrame → s.len.toNat ≤ 250) → s.len.toNat ≤ Config.maxLen →
    s.len.toNat ≤ s.hostIn.length →
    s.prog = wrReg .cmd (encode i) :: .pullAll :: p →
    s.turns = .host :: (List.replicate s.len.toNat .input ++
      (List.replicate (beats (result (latch i s) (s.hostIn.take s.len.toNat))).length .host ++ ts)) →
    ∃ t, steps (1 + s.len.toNat + (beats (result (latch i s) (s.hostIn.take s.len.toNat))).length) s = .next t ∧
      t.hostOut = s.hostOut ++ beats (result (latch i s) (s.hostIn.take s.len.toNat)) ∧
      t.hostIn = s.hostIn.drop s.len.toNat ∧
      t.phase = .idle ∧ t.done = true ∧ t.err = false ∧ t.inbuf = [] ∧ t.outq = [] ∧
      t.units = BitVec.ofNat 32 (unitCount i s.len.toNat s.legacySeg) ∧
      SameParams s t ∧ t.prog = p ∧ t.turns = ts
end

