-- ==== Sys2Proof/Laws/Segments.lean ====
section
/-! SUPPORT. Facts about the sequence notation, the segment count, the segments and the checksums. -/

namespace Sys2Proof.Machine

/-! ### ceil and slices -/

/-- `ceilDiv` is the least natural at least a / b (00_scope.md R16). -/
theorem ceilDiv_le_iff {a b n : Nat} (hb : 0 < b) : ceilDiv a b ≤ n ↔ a ≤ b * n := by
  unfold ceilDiv
  rw [← Nat.lt_succ_iff, Nat.div_lt_iff_lt_mul hb, Nat.succ_mul, Nat.mul_comm n b]
  omega

theorem le_mul_ceilDiv {b : Nat} (a : Nat) (hb : 0 < b) : a ≤ b * ceilDiv a b :=
  (ceilDiv_le_iff hb).1 (Nat.le_refl _)

theorem mul_lt_of_lt_ceilDiv {a b n : Nat} (hb : 0 < b) (h : n < ceilDiv a b) : b * n < a := by
  by_contra hc
  exact absurd ((ceilDiv_le_iff hb).2 (Nat.le_of_not_lt hc)) (Nat.not_le_of_lt h)

@[simp] theorem ceilDiv_zero {b : Nat} (hb : 0 < b) : ceilDiv 0 b = 0 := by
  have := (ceilDiv_le_iff (a := 0) (n := 0) hb).2 (Nat.zero_le _)
  omega

theorem ceilDiv_pos {a b : Nat} (hb : 0 < b) (ha : 0 < a) : 0 < ceilDiv a b := by
  have := le_mul_ceilDiv a hb
  rcases Nat.eq_zero_or_pos (ceilDiv a b) with h | h
  · rw [h] at this; omega
  · exact h

theorem slice_length (xs : List Byte) (a b : Nat) :
    (slice xs a b).length = min b xs.length - a := by
  simp [slice]

theorem take_append_slice (xs : List Byte) {a b : Nat} (h : a ≤ b) :
    xs.take a ++ slice xs a b = xs.take b := by
  have h' : xs.take a = (xs.take b).take a := by rw [List.take_take, Nat.min_eq_left h]
  rw [slice, h', List.take_append_drop]

/-- The slices of a fixed step, put together, are the front of the sequence. -/
theorem flatMap_slices (xs : List Byte) (k n : Nat) :
    (List.range n).flatMap (fun i => slice xs (i * k) ((i + 1) * k)) = xs.take (n * k) := by
  induction n with
  | zero => simp
  | succ n ih =>
    rw [List.range_succ, List.flatMap_append, ih]
    simp only [List.flatMap_cons, List.flatMap_nil, List.append_nil]
    exact take_append_slice xs (Nat.mul_le_mul_right k (Nat.le_succ n))

@[simp] theorem le16_length (v : Half) : (le16 v).length = 2 := rfl

@[simp] theorem checksum_length (data : List Byte) : (checksum data).length = 2 := rfl

@[simp] theorem header_length (s : Nat) (c : Byte) (d r : Half) : (header s c d r).length = 8 := rfl

@[simp] theorem preamble_length (s : Nat) (c : Byte) (d r : Half) : (preamble s c d r).length = 10 := rfl

/-! ### Segment counts and segments -/

theorem segCount_pos (L : Nat) (legacy : Bool) : 0 < segCount L legacy := by
  unfold segCount segCountLegacy segCountCorrected
  split
  · omega
  · split
    · omega
    · exact ceilDiv_pos (by decide) (by omega)

/-- Several segments exactly above 250 bytes, in both modes. -/
theorem one_lt_segCount_iff (L : Nat) (legacy : Bool) : 1 < segCount L legacy ↔ 250 < L := by
  have h250 := ceilDiv_le_iff (a := L) (b := segDiv) (n := 1) (by decide)
  have h249 := ceilDiv_le_iff (a := L) (b := segCap) (n := 1) (by decide)
  unfold segCount segCountLegacy segCountCorrected
  simp only [segDiv, segCap, segMax] at *
  split
  · omega
  · split <;> omega

/-- The start of every slice lies inside the data. -/
theorem segStart_lt {L : Nat} {legacy : Bool} (hL : 250 < L) {i : Nat} (hi : i < segCount L legacy) :
    i * 249 < L := by
  unfold segCount segCountLegacy segCountCorrected at hi
  simp only [segDiv, segCap, segMax] at hi
  split at hi
  · rcases Nat.lt_or_ge i (ceilDiv L 250) with h | h
    · have := mul_lt_of_lt_ceilDiv (b := 250) (by decide) h; omega
    · omega
  · split at hi
    · omega
    · have := mul_lt_of_lt_ceilDiv (b := 249) (by decide) hi; omega

theorem fragment_single {data : List Byte} {legacy : Bool} (h : data.length ≤ 250) :
    fragment data legacy = [data] := by
  have h1 := (one_lt_segCount_iff data.length legacy).not.2 (by omega)
  have h0 := segCount_pos data.length legacy
  have : segCount data.length legacy = 1 := by omega
  simp [fragment, this]

theorem fragment_several {data : List Byte} {legacy : Bool} (h : 250 < data.length) :
    fragment data legacy = (List.range (segCount data.length legacy)).map
      fun i => seqByte i (segCount data.length legacy) :: segSlice data i := by
  have := (one_lt_segCount_iff data.length legacy).2 h
  have : segCount data.length legacy ≠ 1 := by omega
  simp [fragment, this]

theorem fragment_ne_nil (data : List Byte) (legacy : Bool) : fragment data legacy ≠ [] := by
  rcases Nat.lt_or_ge 250 data.length with h | h
  · rw [fragment_several h]
    have := segCount_pos data.length legacy
    simp only [ne_eq, List.map_eq_nil_iff, List.range_eq_nil]
    omega
  · rw [fragment_single h]
    simp

/-- Every segment of a fragmented message is within 250 bytes. -/
theorem length_le_of_mem_fragment {data seg : List Byte} {legacy : Bool}
    (h : seg ∈ fragment data legacy) : seg.length ≤ 250 := by
  rcases Nat.lt_or_ge 250 data.length with hL | hL
  · rw [fragment_several hL] at h
    obtain ⟨i, -, rfl⟩ := List.mem_map.1 h
    simp only [List.length_cons, segSlice, slice_length, segCap]
    omega
  · rw [fragment_single hL] at h
    rw [List.mem_singleton.1 h]
    exact hL

theorem length_fragment (data : List Byte) (legacy : Bool) :
    (fragment data legacy).length = segCount data.length legacy := by
  rcases Nat.lt_or_ge 250 data.length with h | h
  · rw [fragment_several h]; simp
  · have h1 := (one_lt_segCount_iff data.length legacy).not.2 (by omega)
    have h0 := segCount_pos data.length legacy
    rw [fragment_single h, List.length_singleton]
    omega

/-- A count of units always fits the UNITS register (10_state.md R32). -/
theorem segCount_lt_two_pow_32 {L : Nat} (legacy : Bool) (h : L < 2 ^ 32) : segCount L legacy < 2 ^ 32 := by
  have h1 := ceilDiv_le_iff (a := L) (b := segDiv) (n := L) (by decide)
  have h2 := ceilDiv_le_iff (a := L) (b := segCap) (n := L) (by decide)
  unfold segCount segCountLegacy segCountCorrected
  simp only [segDiv, segCap, segMax] at *
  split
  · omega
  · split <;> omega

end Sys2Proof.Machine
end

