-- ==== Sys2Proof/Laws/State.lean ====
section
/-! SUPPORT. What each named update of the state leaves in each field: one lemma per field per update,
so that no later proof unfolds a record update. -/

namespace Sys2Proof.Machine

/-! ### State.flagRejected -/

@[simp] theorem State.flagRejected_done (c : ErrCode) (s : State) : (s.flagRejected c).done = false := rfl
@[simp] theorem State.flagRejected_err (c : ErrCode) (s : State) : (s.flagRejected c).err = true := rfl
@[simp] theorem State.flagRejected_errCode (c : ErrCode) (s : State) : (s.flagRejected c).errCode = c := rfl
@[simp] theorem State.flagRejected_legacySeg (c : ErrCode) (s : State) : (s.flagRejected c).legacySeg = s.legacySeg := rfl
@[simp] theorem State.flagRejected_ctrlCode (c : ErrCode) (s : State) : (s.flagRejected c).ctrlCode = s.ctrlCode := rfl
@[simp] theorem State.flagRejected_dst (c : ErrCode) (s : State) : (s.flagRejected c).dst = s.dst := rfl
@[simp] theorem State.flagRejected_src (c : ErrCode) (s : State) : (s.flagRejected c).src = s.src := rfl
@[simp] theorem State.flagRejected_len (c : ErrCode) (s : State) : (s.flagRejected c).len = s.len := rfl
@[simp] theorem State.flagRejected_units (c : ErrCode) (s : State) : (s.flagRejected c).units = 0#32 := rfl
@[simp] theorem State.flagRejected_phase (c : ErrCode) (s : State) : (s.flagRejected c).phase = s.phase := rfl
@[simp] theorem State.flagRejected_lat (c : ErrCode) (s : State) : (s.flagRejected c).lat = s.lat := rfl
@[simp] theorem State.flagRejected_inbuf (c : ErrCode) (s : State) : (s.flagRejected c).inbuf = s.inbuf := rfl
@[simp] theorem State.flagRejected_outq (c : ErrCode) (s : State) : (s.flagRejected c).outq = s.outq := rfl
@[simp] theorem State.flagRejected_hostIn (c : ErrCode) (s : State) : (s.flagRejected c).hostIn = s.hostIn := rfl
@[simp] theorem State.flagRejected_hostOut (c : ErrCode) (s : State) : (s.flagRejected c).hostOut = s.hostOut := rfl
@[simp] theorem State.flagRejected_reads (c : ErrCode) (s : State) : (s.flagRejected c).reads = s.reads := rfl
@[simp] theorem State.flagRejected_prog (c : ErrCode) (s : State) : (s.flagRejected c).prog = s.prog := rfl
@[simp] theorem State.flagRejected_turns (c : ErrCode) (s : State) : (s.flagRejected c).turns = s.turns := rfl
@[simp] theorem State.flagRejected_resetCount (c : ErrCode) (s : State) : (s.flagRejected c).resetCount = s.resetCount := rfl

/-! ### State.flagAccepted -/

@[simp] theorem State.flagAccepted_done (n : Nat) (s : State) : (s.flagAccepted n).done = false := rfl
@[simp] theorem State.flagAccepted_err (n : Nat) (s : State) : (s.flagAccepted n).err = false := rfl
@[simp] theorem State.flagAccepted_errCode (n : Nat) (s : State) : (s.flagAccepted n).errCode = .none := rfl
@[simp] theorem State.flagAccepted_legacySeg (n : Nat) (s : State) : (s.flagAccepted n).legacySeg = s.legacySeg := rfl
@[simp] theorem State.flagAccepted_ctrlCode (n : Nat) (s : State) : (s.flagAccepted n).ctrlCode = s.ctrlCode := rfl
@[simp] theorem State.flagAccepted_dst (n : Nat) (s : State) : (s.flagAccepted n).dst = s.dst := rfl
@[simp] theorem State.flagAccepted_src (n : Nat) (s : State) : (s.flagAccepted n).src = s.src := rfl
@[simp] theorem State.flagAccepted_len (n : Nat) (s : State) : (s.flagAccepted n).len = s.len := rfl
@[simp] theorem State.flagAccepted_units (n : Nat) (s : State) : (s.flagAccepted n).units = BitVec.ofNat 32 n := rfl
@[simp] theorem State.flagAccepted_phase (n : Nat) (s : State) : (s.flagAccepted n).phase = s.phase := rfl
@[simp] theorem State.flagAccepted_lat (n : Nat) (s : State) : (s.flagAccepted n).lat = s.lat := rfl
@[simp] theorem State.flagAccepted_inbuf (n : Nat) (s : State) : (s.flagAccepted n).inbuf = s.inbuf := rfl
@[simp] theorem State.flagAccepted_outq (n : Nat) (s : State) : (s.flagAccepted n).outq = s.outq := rfl
@[simp] theorem State.flagAccepted_hostIn (n : Nat) (s : State) : (s.flagAccepted n).hostIn = s.hostIn := rfl
@[simp] theorem State.flagAccepted_hostOut (n : Nat) (s : State) : (s.flagAccepted n).hostOut = s.hostOut := rfl
@[simp] theorem State.flagAccepted_reads (n : Nat) (s : State) : (s.flagAccepted n).reads = s.reads := rfl
@[simp] theorem State.flagAccepted_prog (n : Nat) (s : State) : (s.flagAccepted n).prog = s.prog := rfl
@[simp] theorem State.flagAccepted_turns (n : Nat) (s : State) : (s.flagAccepted n).turns = s.turns := rfl
@[simp] theorem State.flagAccepted_resetCount (n : Nat) (s : State) : (s.flagAccepted n).resetCount = s.resetCount := rfl

/-! ### State.flagDone -/

@[simp] theorem State.flagDone_done (s : State) : (s.flagDone).done = true := rfl
@[simp] theorem State.flagDone_err (s : State) : (s.flagDone).err = s.err := rfl
@[simp] theorem State.flagDone_errCode (s : State) : (s.flagDone).errCode = s.errCode := rfl
@[simp] theorem State.flagDone_legacySeg (s : State) : (s.flagDone).legacySeg = s.legacySeg := rfl
@[simp] theorem State.flagDone_ctrlCode (s : State) : (s.flagDone).ctrlCode = s.ctrlCode := rfl
@[simp] theorem State.flagDone_dst (s : State) : (s.flagDone).dst = s.dst := rfl
@[simp] theorem State.flagDone_src (s : State) : (s.flagDone).src = s.src := rfl
@[simp] theorem State.flagDone_len (s : State) : (s.flagDone).len = s.len := rfl
@[simp] theorem State.flagDone_units (s : State) : (s.flagDone).units = s.units := rfl
@[simp] theorem State.flagDone_phase (s : State) : (s.flagDone).phase = s.phase := rfl
@[simp] theorem State.flagDone_lat (s : State) : (s.flagDone).lat = s.lat := rfl
@[simp] theorem State.flagDone_inbuf (s : State) : (s.flagDone).inbuf = s.inbuf := rfl
@[simp] theorem State.flagDone_outq (s : State) : (s.flagDone).outq = s.outq := rfl
@[simp] theorem State.flagDone_hostIn (s : State) : (s.flagDone).hostIn = s.hostIn := rfl
@[simp] theorem State.flagDone_hostOut (s : State) : (s.flagDone).hostOut = s.hostOut := rfl
@[simp] theorem State.flagDone_reads (s : State) : (s.flagDone).reads = s.reads := rfl
@[simp] theorem State.flagDone_prog (s : State) : (s.flagDone).prog = s.prog := rfl
@[simp] theorem State.flagDone_turns (s : State) : (s.flagDone).turns = s.turns := rfl
@[simp] theorem State.flagDone_resetCount (s : State) : (s.flagDone).resetCount = s.resetCount := rfl

/-! ### reject -/

@[simp] theorem reject_done (c : ErrCode) (s : State) : (reject c s).done = false := rfl
@[simp] theorem reject_err (c : ErrCode) (s : State) : (reject c s).err = true := rfl
@[simp] theorem reject_errCode (c : ErrCode) (s : State) : (reject c s).errCode = c := rfl
@[simp] theorem reject_legacySeg (c : ErrCode) (s : State) : (reject c s).legacySeg = s.legacySeg := rfl
@[simp] theorem reject_ctrlCode (c : ErrCode) (s : State) : (reject c s).ctrlCode = s.ctrlCode := rfl
@[simp] theorem reject_dst (c : ErrCode) (s : State) : (reject c s).dst = s.dst := rfl
@[simp] theorem reject_src (c : ErrCode) (s : State) : (reject c s).src = s.src := rfl
@[simp] theorem reject_len (c : ErrCode) (s : State) : (reject c s).len = s.len := rfl
@[simp] theorem reject_units (c : ErrCode) (s : State) : (reject c s).units = 0#32 := rfl
@[simp] theorem reject_phase (c : ErrCode) (s : State) : (reject c s).phase = s.phase := rfl
@[simp] theorem reject_lat (c : ErrCode) (s : State) : (reject c s).lat = s.lat := rfl
@[simp] theorem reject_inbuf (c : ErrCode) (s : State) : (reject c s).inbuf = s.inbuf := rfl
@[simp] theorem reject_outq (c : ErrCode) (s : State) : (reject c s).outq = s.outq := rfl
@[simp] theorem reject_hostIn (c : ErrCode) (s : State) : (reject c s).hostIn = s.hostIn := rfl
@[simp] theorem reject_hostOut (c : ErrCode) (s : State) : (reject c s).hostOut = s.hostOut := rfl
@[simp] theorem reject_reads (c : ErrCode) (s : State) : (reject c s).reads = s.reads := rfl
@[simp] theorem reject_prog (c : ErrCode) (s : State) : (reject c s).prog = s.prog := rfl
@[simp] theorem reject_turns (c : ErrCode) (s : State) : (reject c s).turns = s.turns := rfl
@[simp] theorem reject_resetCount (c : ErrCode) (s : State) : (reject c s).resetCount = s.resetCount := rfl

/-! ### latchCommand -/

@[simp] theorem latchCommand_done (i : Instr) (s : State) : (latchCommand i s).done = false := rfl
@[simp] theorem latchCommand_err (i : Instr) (s : State) : (latchCommand i s).err = false := rfl
@[simp] theorem latchCommand_errCode (i : Instr) (s : State) : (latchCommand i s).errCode = .none := rfl
@[simp] theorem latchCommand_legacySeg (i : Instr) (s : State) : (latchCommand i s).legacySeg = s.legacySeg := rfl
@[simp] theorem latchCommand_ctrlCode (i : Instr) (s : State) : (latchCommand i s).ctrlCode = s.ctrlCode := rfl
@[simp] theorem latchCommand_dst (i : Instr) (s : State) : (latchCommand i s).dst = s.dst := rfl
@[simp] theorem latchCommand_src (i : Instr) (s : State) : (latchCommand i s).src = s.src := rfl
@[simp] theorem latchCommand_len (i : Instr) (s : State) : (latchCommand i s).len = s.len := rfl
@[simp] theorem latchCommand_units (i : Instr) (s : State) : (latchCommand i s).units = BitVec.ofNat 32 (unitCount i s.len.toNat s.legacySeg) := rfl
@[simp] theorem latchCommand_phase (i : Instr) (s : State) : (latchCommand i s).phase = s.phase := rfl
@[simp] theorem latchCommand_lat (i : Instr) (s : State) : (latchCommand i s).lat = latch i s := rfl
@[simp] theorem latchCommand_inbuf (i : Instr) (s : State) : (latchCommand i s).inbuf = [] := rfl
@[simp] theorem latchCommand_outq (i : Instr) (s : State) : (latchCommand i s).outq = s.outq := rfl
@[simp] theorem latchCommand_hostIn (i : Instr) (s : State) : (latchCommand i s).hostIn = s.hostIn := rfl
@[simp] theorem latchCommand_hostOut (i : Instr) (s : State) : (latchCommand i s).hostOut = s.hostOut := rfl
@[simp] theorem latchCommand_reads (i : Instr) (s : State) : (latchCommand i s).reads = s.reads := rfl
@[simp] theorem latchCommand_prog (i : Instr) (s : State) : (latchCommand i s).prog = s.prog := rfl
@[simp] theorem latchCommand_turns (i : Instr) (s : State) : (latchCommand i s).turns = s.turns := rfl
@[simp] theorem latchCommand_resetCount (i : Instr) (s : State) : (latchCommand i s).resetCount = s.resetCount := rfl

/-! ### finishLoad -/

@[simp] theorem finishLoad_done (s : State) : (finishLoad s).done = s.done := rfl
@[simp] theorem finishLoad_err (s : State) : (finishLoad s).err = s.err := rfl
@[simp] theorem finishLoad_errCode (s : State) : (finishLoad s).errCode = s.errCode := rfl
@[simp] theorem finishLoad_legacySeg (s : State) : (finishLoad s).legacySeg = s.legacySeg := rfl
@[simp] theorem finishLoad_ctrlCode (s : State) : (finishLoad s).ctrlCode = s.ctrlCode := rfl
@[simp] theorem finishLoad_dst (s : State) : (finishLoad s).dst = s.dst := rfl
@[simp] theorem finishLoad_src (s : State) : (finishLoad s).src = s.src := rfl
@[simp] theorem finishLoad_len (s : State) : (finishLoad s).len = s.len := rfl
@[simp] theorem finishLoad_units (s : State) : (finishLoad s).units = s.units := rfl
@[simp] theorem finishLoad_phase (s : State) : (finishLoad s).phase = .emit := rfl
@[simp] theorem finishLoad_lat (s : State) : (finishLoad s).lat = s.lat := rfl
@[simp] theorem finishLoad_inbuf (s : State) : (finishLoad s).inbuf = s.inbuf := rfl
@[simp] theorem finishLoad_outq (s : State) : (finishLoad s).outq = beats (result s.lat s.inbuf) := rfl
@[simp] theorem finishLoad_hostIn (s : State) : (finishLoad s).hostIn = s.hostIn := rfl
@[simp] theorem finishLoad_hostOut (s : State) : (finishLoad s).hostOut = s.hostOut := rfl
@[simp] theorem finishLoad_reads (s : State) : (finishLoad s).reads = s.reads := rfl
@[simp] theorem finishLoad_prog (s : State) : (finishLoad s).prog = s.prog := rfl
@[simp] theorem finishLoad_turns (s : State) : (finishLoad s).turns = s.turns := rfl
@[simp] theorem finishLoad_resetCount (s : State) : (finishLoad s).resetCount = s.resetCount := rfl

/-! ### awaitInput -/

@[simp] theorem awaitInput_done (s : State) : (awaitInput s).done = s.done := rfl
@[simp] theorem awaitInput_err (s : State) : (awaitInput s).err = s.err := rfl
@[simp] theorem awaitInput_errCode (s : State) : (awaitInput s).errCode = s.errCode := rfl
@[simp] theorem awaitInput_legacySeg (s : State) : (awaitInput s).legacySeg = s.legacySeg := rfl
@[simp] theorem awaitInput_ctrlCode (s : State) : (awaitInput s).ctrlCode = s.ctrlCode := rfl
@[simp] theorem awaitInput_dst (s : State) : (awaitInput s).dst = s.dst := rfl
@[simp] theorem awaitInput_src (s : State) : (awaitInput s).src = s.src := rfl
@[simp] theorem awaitInput_len (s : State) : (awaitInput s).len = s.len := rfl
@[simp] theorem awaitInput_units (s : State) : (awaitInput s).units = s.units := rfl
@[simp] theorem awaitInput_phase (s : State) : (awaitInput s).phase = .load := rfl
@[simp] theorem awaitInput_lat (s : State) : (awaitInput s).lat = s.lat := rfl
@[simp] theorem awaitInput_inbuf (s : State) : (awaitInput s).inbuf = s.inbuf := rfl
@[simp] theorem awaitInput_outq (s : State) : (awaitInput s).outq = s.outq := rfl
@[simp] theorem awaitInput_hostIn (s : State) : (awaitInput s).hostIn = s.hostIn := rfl
@[simp] theorem awaitInput_hostOut (s : State) : (awaitInput s).hostOut = s.hostOut := rfl
@[simp] theorem awaitInput_reads (s : State) : (awaitInput s).reads = s.reads := rfl
@[simp] theorem awaitInput_prog (s : State) : (awaitInput s).prog = s.prog := rfl
@[simp] theorem awaitInput_turns (s : State) : (awaitInput s).turns = s.turns := rfl
@[simp] theorem awaitInput_resetCount (s : State) : (awaitInput s).resetCount = s.resetCount := rfl

/-! ### offer -/

@[simp] theorem offer_done (b : Byte) (s : State) : (offer b s).done = s.done := rfl
@[simp] theorem offer_err (b : Byte) (s : State) : (offer b s).err = s.err := rfl
@[simp] theorem offer_errCode (b : Byte) (s : State) : (offer b s).errCode = s.errCode := rfl
@[simp] theorem offer_legacySeg (b : Byte) (s : State) : (offer b s).legacySeg = s.legacySeg := rfl
@[simp] theorem offer_ctrlCode (b : Byte) (s : State) : (offer b s).ctrlCode = s.ctrlCode := rfl
@[simp] theorem offer_dst (b : Byte) (s : State) : (offer b s).dst = s.dst := rfl
@[simp] theorem offer_src (b : Byte) (s : State) : (offer b s).src = s.src := rfl
@[simp] theorem offer_len (b : Byte) (s : State) : (offer b s).len = s.len := rfl
@[simp] theorem offer_units (b : Byte) (s : State) : (offer b s).units = s.units := rfl
@[simp] theorem offer_phase (b : Byte) (s : State) : (offer b s).phase = s.phase := rfl
@[simp] theorem offer_lat (b : Byte) (s : State) : (offer b s).lat = s.lat := rfl
@[simp] theorem offer_inbuf (b : Byte) (s : State) : (offer b s).inbuf = s.inbuf := rfl
@[simp] theorem offer_outq (b : Byte) (s : State) : (offer b s).outq = s.outq := rfl
@[simp] theorem offer_hostIn (b : Byte) (s : State) : (offer b s).hostIn = s.hostIn ++ [b] := rfl
@[simp] theorem offer_hostOut (b : Byte) (s : State) : (offer b s).hostOut = s.hostOut := rfl
@[simp] theorem offer_reads (b : Byte) (s : State) : (offer b s).reads = s.reads := rfl
@[simp] theorem offer_prog (b : Byte) (s : State) : (offer b s).prog = s.prog := rfl
@[simp] theorem offer_turns (b : Byte) (s : State) : (offer b s).turns = s.turns := rfl
@[simp] theorem offer_resetCount (b : Byte) (s : State) : (offer b s).resetCount = s.resetCount := rfl

/-! ### takeByte -/

@[simp] theorem takeByte_done (b : Byte) (rest : List Byte) (s : State) : (takeByte b rest s).done = s.done := rfl
@[simp] theorem takeByte_err (b : Byte) (rest : List Byte) (s : State) : (takeByte b rest s).err = s.err := rfl
@[simp] theorem takeByte_errCode (b : Byte) (rest : List Byte) (s : State) : (takeByte b rest s).errCode = s.errCode := rfl
@[simp] theorem takeByte_legacySeg (b : Byte) (rest : List Byte) (s : State) : (takeByte b rest s).legacySeg = s.legacySeg := rfl
@[simp] theorem takeByte_ctrlCode (b : Byte) (rest : List Byte) (s : State) : (takeByte b rest s).ctrlCode = s.ctrlCode := rfl
@[simp] theorem takeByte_dst (b : Byte) (rest : List Byte) (s : State) : (takeByte b rest s).dst = s.dst := rfl
@[simp] theorem takeByte_src (b : Byte) (rest : List Byte) (s : State) : (takeByte b rest s).src = s.src := rfl
@[simp] theorem takeByte_len (b : Byte) (rest : List Byte) (s : State) : (takeByte b rest s).len = s.len := rfl
@[simp] theorem takeByte_units (b : Byte) (rest : List Byte) (s : State) : (takeByte b rest s).units = s.units := rfl
@[simp] theorem takeByte_phase (b : Byte) (rest : List Byte) (s : State) : (takeByte b rest s).phase = s.phase := rfl
@[simp] theorem takeByte_lat (b : Byte) (rest : List Byte) (s : State) : (takeByte b rest s).lat = s.lat := rfl
@[simp] theorem takeByte_inbuf (b : Byte) (rest : List Byte) (s : State) : (takeByte b rest s).inbuf = s.inbuf ++ [b] := rfl
@[simp] theorem takeByte_outq (b : Byte) (rest : List Byte) (s : State) : (takeByte b rest s).outq = s.outq := rfl
@[simp] theorem takeByte_hostIn (b : Byte) (rest : List Byte) (s : State) : (takeByte b rest s).hostIn = rest := rfl
@[simp] theorem takeByte_hostOut (b : Byte) (rest : List Byte) (s : State) : (takeByte b rest s).hostOut = s.hostOut := rfl
@[simp] theorem takeByte_reads (b : Byte) (rest : List Byte) (s : State) : (takeByte b rest s).reads = s.reads := rfl
@[simp] theorem takeByte_prog (b : Byte) (rest : List Byte) (s : State) : (takeByte b rest s).prog = s.prog := rfl
@[simp] theorem takeByte_turns (b : Byte) (rest : List Byte) (s : State) : (takeByte b rest s).turns = s.turns := rfl
@[simp] theorem takeByte_resetCount (b : Byte) (rest : List Byte) (s : State) : (takeByte b rest s).resetCount = s.resetCount := rfl

/-! ### deliverBeat -/

@[simp] theorem deliverBeat_done (b : Beat) (rest : List Beat) (s : State) : (deliverBeat b rest s).done = s.done := rfl
@[simp] theorem deliverBeat_err (b : Beat) (rest : List Beat) (s : State) : (deliverBeat b rest s).err = s.err := rfl
@[simp] theorem deliverBeat_errCode (b : Beat) (rest : List Beat) (s : State) : (deliverBeat b rest s).errCode = s.errCode := rfl
@[simp] theorem deliverBeat_legacySeg (b : Beat) (rest : List Beat) (s : State) : (deliverBeat b rest s).legacySeg = s.legacySeg := rfl
@[simp] theorem deliverBeat_ctrlCode (b : Beat) (rest : List Beat) (s : State) : (deliverBeat b rest s).ctrlCode = s.ctrlCode := rfl
@[simp] theorem deliverBeat_dst (b : Beat) (rest : List Beat) (s : State) : (deliverBeat b rest s).dst = s.dst := rfl
@[simp] theorem deliverBeat_src (b : Beat) (rest : List Beat) (s : State) : (deliverBeat b rest s).src = s.src := rfl
@[simp] theorem deliverBeat_len (b : Beat) (rest : List Beat) (s : State) : (deliverBeat b rest s).len = s.len := rfl
@[simp] theorem deliverBeat_units (b : Beat) (rest : List Beat) (s : State) : (deliverBeat b rest s).units = s.units := rfl
@[simp] theorem deliverBeat_phase (b : Beat) (rest : List Beat) (s : State) : (deliverBeat b rest s).phase = s.phase := rfl
@[simp] theorem deliverBeat_lat (b : Beat) (rest : List Beat) (s : State) : (deliverBeat b rest s).lat = s.lat := rfl
@[simp] theorem deliverBeat_inbuf (b : Beat) (rest : List Beat) (s : State) : (deliverBeat b rest s).inbuf = s.inbuf := rfl
@[simp] theorem deliverBeat_outq (b : Beat) (rest : List Beat) (s : State) : (deliverBeat b rest s).outq = rest := rfl
@[simp] theorem deliverBeat_hostIn (b : Beat) (rest : List Beat) (s : State) : (deliverBeat b rest s).hostIn = s.hostIn := rfl
@[simp] theorem deliverBeat_hostOut (b : Beat) (rest : List Beat) (s : State) : (deliverBeat b rest s).hostOut = s.hostOut ++ [b] := rfl
@[simp] theorem deliverBeat_reads (b : Beat) (rest : List Beat) (s : State) : (deliverBeat b rest s).reads = s.reads := rfl
@[simp] theorem deliverBeat_prog (b : Beat) (rest : List Beat) (s : State) : (deliverBeat b rest s).prog = s.prog := rfl
@[simp] theorem deliverBeat_turns (b : Beat) (rest : List Beat) (s : State) : (deliverBeat b rest s).turns = s.turns := rfl
@[simp] theorem deliverBeat_resetCount (b : Beat) (rest : List Beat) (s : State) : (deliverBeat b rest s).resetCount = s.resetCount := rfl

/-! ### completeCommand -/

@[simp] theorem completeCommand_done (s : State) : (completeCommand s).done = true := rfl
@[simp] theorem completeCommand_err (s : State) : (completeCommand s).err = s.err := rfl
@[simp] theorem completeCommand_errCode (s : State) : (completeCommand s).errCode = s.errCode := rfl
@[simp] theorem completeCommand_legacySeg (s : State) : (completeCommand s).legacySeg = s.legacySeg := rfl
@[simp] theorem completeCommand_ctrlCode (s : State) : (completeCommand s).ctrlCode = s.ctrlCode := rfl
@[simp] theorem completeCommand_dst (s : State) : (completeCommand s).dst = s.dst := rfl
@[simp] theorem completeCommand_src (s : State) : (completeCommand s).src = s.src := rfl
@[simp] theorem completeCommand_len (s : State) : (completeCommand s).len = s.len := rfl
@[simp] theorem completeCommand_units (s : State) : (completeCommand s).units = s.units := rfl
@[simp] theorem completeCommand_phase (s : State) : (completeCommand s).phase = .idle := rfl
@[simp] theorem completeCommand_lat (s : State) : (completeCommand s).lat = s.lat := rfl
@[simp] theorem completeCommand_inbuf (s : State) : (completeCommand s).inbuf = [] := rfl
@[simp] theorem completeCommand_outq (s : State) : (completeCommand s).outq = s.outq := rfl
@[simp] theorem completeCommand_hostIn (s : State) : (completeCommand s).hostIn = s.hostIn := rfl
@[simp] theorem completeCommand_hostOut (s : State) : (completeCommand s).hostOut = s.hostOut := rfl
@[simp] theorem completeCommand_reads (s : State) : (completeCommand s).reads = s.reads := rfl
@[simp] theorem completeCommand_prog (s : State) : (completeCommand s).prog = s.prog := rfl
@[simp] theorem completeCommand_turns (s : State) : (completeCommand s).turns = s.turns := rfl
@[simp] theorem completeCommand_resetCount (s : State) : (completeCommand s).resetCount = s.resetCount := rfl

/-! ### blockReset -/

@[simp] theorem blockReset_done (s : State) : (blockReset s).done = false := rfl
@[simp] theorem blockReset_err (s : State) : (blockReset s).err = false := rfl
@[simp] theorem blockReset_errCode (s : State) : (blockReset s).errCode = .none := rfl
@[simp] theorem blockReset_legacySeg (s : State) : (blockReset s).legacySeg = true := rfl
@[simp] theorem blockReset_ctrlCode (s : State) : (blockReset s).ctrlCode = 0x44#8 := rfl
@[simp] theorem blockReset_dst (s : State) : (blockReset s).dst = 0#32 := rfl
@[simp] theorem blockReset_src (s : State) : (blockReset s).src = 0#32 := rfl
@[simp] theorem blockReset_len (s : State) : (blockReset s).len = 0#32 := rfl
@[simp] theorem blockReset_units (s : State) : (blockReset s).units = 0#32 := rfl
@[simp] theorem blockReset_phase (s : State) : (blockReset s).phase = .idle := rfl
@[simp] theorem blockReset_lat (s : State) : (blockReset s).lat = Config.latAfterReset (s.resetCount + 1) := rfl
@[simp] theorem blockReset_inbuf (s : State) : (blockReset s).inbuf = [] := rfl
@[simp] theorem blockReset_outq (s : State) : (blockReset s).outq = [] := rfl
@[simp] theorem blockReset_hostIn (s : State) : (blockReset s).hostIn = s.hostIn := rfl
@[simp] theorem blockReset_hostOut (s : State) : (blockReset s).hostOut = s.hostOut := rfl
@[simp] theorem blockReset_reads (s : State) : (blockReset s).reads = s.reads := rfl
@[simp] theorem blockReset_prog (s : State) : (blockReset s).prog = s.prog := rfl
@[simp] theorem blockReset_turns (s : State) : (blockReset s).turns = s.turns := rfl
@[simp] theorem blockReset_resetCount (s : State) : (blockReset s).resetCount = s.resetCount + 1 := rfl

/-! ### writeConfig -/

@[simp] theorem writeConfig_done (v : Word) (s : State) : (writeConfig v s).done = s.done := rfl
@[simp] theorem writeConfig_err (v : Word) (s : State) : (writeConfig v s).err = s.err := rfl
@[simp] theorem writeConfig_errCode (v : Word) (s : State) : (writeConfig v s).errCode = s.errCode := rfl
@[simp] theorem writeConfig_legacySeg (v : Word) (s : State) : (writeConfig v s).legacySeg = v.getLsbD 0 := rfl
@[simp] theorem writeConfig_ctrlCode (v : Word) (s : State) : (writeConfig v s).ctrlCode = s.ctrlCode := rfl
@[simp] theorem writeConfig_dst (v : Word) (s : State) : (writeConfig v s).dst = s.dst := rfl
@[simp] theorem writeConfig_src (v : Word) (s : State) : (writeConfig v s).src = s.src := rfl
@[simp] theorem writeConfig_len (v : Word) (s : State) : (writeConfig v s).len = s.len := rfl
@[simp] theorem writeConfig_units (v : Word) (s : State) : (writeConfig v s).units = s.units := rfl
@[simp] theorem writeConfig_phase (v : Word) (s : State) : (writeConfig v s).phase = s.phase := rfl
@[simp] theorem writeConfig_lat (v : Word) (s : State) : (writeConfig v s).lat = s.lat := rfl
@[simp] theorem writeConfig_inbuf (v : Word) (s : State) : (writeConfig v s).inbuf = s.inbuf := rfl
@[simp] theorem writeConfig_outq (v : Word) (s : State) : (writeConfig v s).outq = s.outq := rfl
@[simp] theorem writeConfig_hostIn (v : Word) (s : State) : (writeConfig v s).hostIn = s.hostIn := rfl
@[simp] theorem writeConfig_hostOut (v : Word) (s : State) : (writeConfig v s).hostOut = s.hostOut := rfl
@[simp] theorem writeConfig_reads (v : Word) (s : State) : (writeConfig v s).reads = s.reads := rfl
@[simp] theorem writeConfig_prog (v : Word) (s : State) : (writeConfig v s).prog = s.prog := rfl
@[simp] theorem writeConfig_turns (v : Word) (s : State) : (writeConfig v s).turns = s.turns := rfl
@[simp] theorem writeConfig_resetCount (v : Word) (s : State) : (writeConfig v s).resetCount = s.resetCount := rfl

/-! ### writeCtrlCode -/

@[simp] theorem writeCtrlCode_done (v : Word) (s : State) : (writeCtrlCode v s).done = s.done := rfl
@[simp] theorem writeCtrlCode_err (v : Word) (s : State) : (writeCtrlCode v s).err = s.err := rfl
@[simp] theorem writeCtrlCode_errCode (v : Word) (s : State) : (writeCtrlCode v s).errCode = s.errCode := rfl
@[simp] theorem writeCtrlCode_legacySeg (v : Word) (s : State) : (writeCtrlCode v s).legacySeg = s.legacySeg := rfl
@[simp] theorem writeCtrlCode_ctrlCode (v : Word) (s : State) : (writeCtrlCode v s).ctrlCode = v.extractLsb' 0 8 := rfl
@[simp] theorem writeCtrlCode_dst (v : Word) (s : State) : (writeCtrlCode v s).dst = s.dst := rfl
@[simp] theorem writeCtrlCode_src (v : Word) (s : State) : (writeCtrlCode v s).src = s.src := rfl
@[simp] theorem writeCtrlCode_len (v : Word) (s : State) : (writeCtrlCode v s).len = s.len := rfl
@[simp] theorem writeCtrlCode_units (v : Word) (s : State) : (writeCtrlCode v s).units = s.units := rfl
@[simp] theorem writeCtrlCode_phase (v : Word) (s : State) : (writeCtrlCode v s).phase = s.phase := rfl
@[simp] theorem writeCtrlCode_lat (v : Word) (s : State) : (writeCtrlCode v s).lat = s.lat := rfl
@[simp] theorem writeCtrlCode_inbuf (v : Word) (s : State) : (writeCtrlCode v s).inbuf = s.inbuf := rfl
@[simp] theorem writeCtrlCode_outq (v : Word) (s : State) : (writeCtrlCode v s).outq = s.outq := rfl
@[simp] theorem writeCtrlCode_hostIn (v : Word) (s : State) : (writeCtrlCode v s).hostIn = s.hostIn := rfl
@[simp] theorem writeCtrlCode_hostOut (v : Word) (s : State) : (writeCtrlCode v s).hostOut = s.hostOut := rfl
@[simp] theorem writeCtrlCode_reads (v : Word) (s : State) : (writeCtrlCode v s).reads = s.reads := rfl
@[simp] theorem writeCtrlCode_prog (v : Word) (s : State) : (writeCtrlCode v s).prog = s.prog := rfl
@[simp] theorem writeCtrlCode_turns (v : Word) (s : State) : (writeCtrlCode v s).turns = s.turns := rfl
@[simp] theorem writeCtrlCode_resetCount (v : Word) (s : State) : (writeCtrlCode v s).resetCount = s.resetCount := rfl

/-! ### writeDst -/

@[simp] theorem writeDst_done (v : Word) (s : State) : (writeDst v s).done = s.done := rfl
@[simp] theorem writeDst_err (v : Word) (s : State) : (writeDst v s).err = s.err := rfl
@[simp] theorem writeDst_errCode (v : Word) (s : State) : (writeDst v s).errCode = s.errCode := rfl
@[simp] theorem writeDst_legacySeg (v : Word) (s : State) : (writeDst v s).legacySeg = s.legacySeg := rfl
@[simp] theorem writeDst_ctrlCode (v : Word) (s : State) : (writeDst v s).ctrlCode = s.ctrlCode := rfl
@[simp] theorem writeDst_dst (v : Word) (s : State) : (writeDst v s).dst = v := rfl
@[simp] theorem writeDst_src (v : Word) (s : State) : (writeDst v s).src = s.src := rfl
@[simp] theorem writeDst_len (v : Word) (s : State) : (writeDst v s).len = s.len := rfl
@[simp] theorem writeDst_units (v : Word) (s : State) : (writeDst v s).units = s.units := rfl
@[simp] theorem writeDst_phase (v : Word) (s : State) : (writeDst v s).phase = s.phase := rfl
@[simp] theorem writeDst_lat (v : Word) (s : State) : (writeDst v s).lat = s.lat := rfl
@[simp] theorem writeDst_inbuf (v : Word) (s : State) : (writeDst v s).inbuf = s.inbuf := rfl
@[simp] theorem writeDst_outq (v : Word) (s : State) : (writeDst v s).outq = s.outq := rfl
@[simp] theorem writeDst_hostIn (v : Word) (s : State) : (writeDst v s).hostIn = s.hostIn := rfl
@[simp] theorem writeDst_hostOut (v : Word) (s : State) : (writeDst v s).hostOut = s.hostOut := rfl
@[simp] theorem writeDst_reads (v : Word) (s : State) : (writeDst v s).reads = s.reads := rfl
@[simp] theorem writeDst_prog (v : Word) (s : State) : (writeDst v s).prog = s.prog := rfl
@[simp] theorem writeDst_turns (v : Word) (s : State) : (writeDst v s).turns = s.turns := rfl
@[simp] theorem writeDst_resetCount (v : Word) (s : State) : (writeDst v s).resetCount = s.resetCount := rfl

/-! ### writeSrc -/

@[simp] theorem writeSrc_done (v : Word) (s : State) : (writeSrc v s).done = s.done := rfl
@[simp] theorem writeSrc_err (v : Word) (s : State) : (writeSrc v s).err = s.err := rfl
@[simp] theorem writeSrc_errCode (v : Word) (s : State) : (writeSrc v s).errCode = s.errCode := rfl
@[simp] theorem writeSrc_legacySeg (v : Word) (s : State) : (writeSrc v s).legacySeg = s.legacySeg := rfl
@[simp] theorem writeSrc_ctrlCode (v : Word) (s : State) : (writeSrc v s).ctrlCode = s.ctrlCode := rfl
@[simp] theorem writeSrc_dst (v : Word) (s : State) : (writeSrc v s).dst = s.dst := rfl
@[simp] theorem writeSrc_src (v : Word) (s : State) : (writeSrc v s).src = v := rfl
@[simp] theorem writeSrc_len (v : Word) (s : State) : (writeSrc v s).len = s.len := rfl
@[simp] theorem writeSrc_units (v : Word) (s : State) : (writeSrc v s).units = s.units := rfl
@[simp] theorem writeSrc_phase (v : Word) (s : State) : (writeSrc v s).phase = s.phase := rfl
@[simp] theorem writeSrc_lat (v : Word) (s : State) : (writeSrc v s).lat = s.lat := rfl
@[simp] theorem writeSrc_inbuf (v : Word) (s : State) : (writeSrc v s).inbuf = s.inbuf := rfl
@[simp] theorem writeSrc_outq (v : Word) (s : State) : (writeSrc v s).outq = s.outq := rfl
@[simp] theorem writeSrc_hostIn (v : Word) (s : State) : (writeSrc v s).hostIn = s.hostIn := rfl
@[simp] theorem writeSrc_hostOut (v : Word) (s : State) : (writeSrc v s).hostOut = s.hostOut := rfl
@[simp] theorem writeSrc_reads (v : Word) (s : State) : (writeSrc v s).reads = s.reads := rfl
@[simp] theorem writeSrc_prog (v : Word) (s : State) : (writeSrc v s).prog = s.prog := rfl
@[simp] theorem writeSrc_turns (v : Word) (s : State) : (writeSrc v s).turns = s.turns := rfl
@[simp] theorem writeSrc_resetCount (v : Word) (s : State) : (writeSrc v s).resetCount = s.resetCount := rfl

/-! ### writeLen -/

@[simp] theorem writeLen_done (v : Word) (s : State) : (writeLen v s).done = s.done := rfl
@[simp] theorem writeLen_err (v : Word) (s : State) : (writeLen v s).err = s.err := rfl
@[simp] theorem writeLen_errCode (v : Word) (s : State) : (writeLen v s).errCode = s.errCode := rfl
@[simp] theorem writeLen_legacySeg (v : Word) (s : State) : (writeLen v s).legacySeg = s.legacySeg := rfl
@[simp] theorem writeLen_ctrlCode (v : Word) (s : State) : (writeLen v s).ctrlCode = s.ctrlCode := rfl
@[simp] theorem writeLen_dst (v : Word) (s : State) : (writeLen v s).dst = s.dst := rfl
@[simp] theorem writeLen_src (v : Word) (s : State) : (writeLen v s).src = s.src := rfl
@[simp] theorem writeLen_len (v : Word) (s : State) : (writeLen v s).len = v := rfl
@[simp] theorem writeLen_units (v : Word) (s : State) : (writeLen v s).units = s.units := rfl
@[simp] theorem writeLen_phase (v : Word) (s : State) : (writeLen v s).phase = s.phase := rfl
@[simp] theorem writeLen_lat (v : Word) (s : State) : (writeLen v s).lat = s.lat := rfl
@[simp] theorem writeLen_inbuf (v : Word) (s : State) : (writeLen v s).inbuf = s.inbuf := rfl
@[simp] theorem writeLen_outq (v : Word) (s : State) : (writeLen v s).outq = s.outq := rfl
@[simp] theorem writeLen_hostIn (v : Word) (s : State) : (writeLen v s).hostIn = s.hostIn := rfl
@[simp] theorem writeLen_hostOut (v : Word) (s : State) : (writeLen v s).hostOut = s.hostOut := rfl
@[simp] theorem writeLen_reads (v : Word) (s : State) : (writeLen v s).reads = s.reads := rfl
@[simp] theorem writeLen_prog (v : Word) (s : State) : (writeLen v s).prog = s.prog := rfl
@[simp] theorem writeLen_turns (v : Word) (s : State) : (writeLen v s).turns = s.turns := rfl
@[simp] theorem writeLen_resetCount (v : Word) (s : State) : (writeLen v s).resetCount = s.resetCount := rfl

/-! ### recordRead -/

@[simp] theorem recordRead_done (off : Nat) (s : State) : (recordRead off s).done = s.done := rfl
@[simp] theorem recordRead_err (off : Nat) (s : State) : (recordRead off s).err = s.err := rfl
@[simp] theorem recordRead_errCode (off : Nat) (s : State) : (recordRead off s).errCode = s.errCode := rfl
@[simp] theorem recordRead_legacySeg (off : Nat) (s : State) : (recordRead off s).legacySeg = s.legacySeg := rfl
@[simp] theorem recordRead_ctrlCode (off : Nat) (s : State) : (recordRead off s).ctrlCode = s.ctrlCode := rfl
@[simp] theorem recordRead_dst (off : Nat) (s : State) : (recordRead off s).dst = s.dst := rfl
@[simp] theorem recordRead_src (off : Nat) (s : State) : (recordRead off s).src = s.src := rfl
@[simp] theorem recordRead_len (off : Nat) (s : State) : (recordRead off s).len = s.len := rfl
@[simp] theorem recordRead_units (off : Nat) (s : State) : (recordRead off s).units = s.units := rfl
@[simp] theorem recordRead_phase (off : Nat) (s : State) : (recordRead off s).phase = s.phase := rfl
@[simp] theorem recordRead_lat (off : Nat) (s : State) : (recordRead off s).lat = s.lat := rfl
@[simp] theorem recordRead_inbuf (off : Nat) (s : State) : (recordRead off s).inbuf = s.inbuf := rfl
@[simp] theorem recordRead_outq (off : Nat) (s : State) : (recordRead off s).outq = s.outq := rfl
@[simp] theorem recordRead_hostIn (off : Nat) (s : State) : (recordRead off s).hostIn = s.hostIn := rfl
@[simp] theorem recordRead_hostOut (off : Nat) (s : State) : (recordRead off s).hostOut = s.hostOut := rfl
@[simp] theorem recordRead_reads (off : Nat) (s : State) : (recordRead off s).reads = s.reads ++ [regRead off s] := rfl
@[simp] theorem recordRead_prog (off : Nat) (s : State) : (recordRead off s).prog = s.prog := rfl
@[simp] theorem recordRead_turns (off : Nat) (s : State) : (recordRead off s).turns = s.turns := rfl
@[simp] theorem recordRead_resetCount (off : Nat) (s : State) : (recordRead off s).resetCount = s.resetCount := rfl

/-! ### again -/

@[simp] theorem again_done (op : HostOp) (s : State) : (again op s).done = s.done := rfl
@[simp] theorem again_err (op : HostOp) (s : State) : (again op s).err = s.err := rfl
@[simp] theorem again_errCode (op : HostOp) (s : State) : (again op s).errCode = s.errCode := rfl
@[simp] theorem again_legacySeg (op : HostOp) (s : State) : (again op s).legacySeg = s.legacySeg := rfl
@[simp] theorem again_ctrlCode (op : HostOp) (s : State) : (again op s).ctrlCode = s.ctrlCode := rfl
@[simp] theorem again_dst (op : HostOp) (s : State) : (again op s).dst = s.dst := rfl
@[simp] theorem again_src (op : HostOp) (s : State) : (again op s).src = s.src := rfl
@[simp] theorem again_len (op : HostOp) (s : State) : (again op s).len = s.len := rfl
@[simp] theorem again_units (op : HostOp) (s : State) : (again op s).units = s.units := rfl
@[simp] theorem again_phase (op : HostOp) (s : State) : (again op s).phase = s.phase := rfl
@[simp] theorem again_lat (op : HostOp) (s : State) : (again op s).lat = s.lat := rfl
@[simp] theorem again_inbuf (op : HostOp) (s : State) : (again op s).inbuf = s.inbuf := rfl
@[simp] theorem again_outq (op : HostOp) (s : State) : (again op s).outq = s.outq := rfl
@[simp] theorem again_hostIn (op : HostOp) (s : State) : (again op s).hostIn = s.hostIn := rfl
@[simp] theorem again_hostOut (op : HostOp) (s : State) : (again op s).hostOut = s.hostOut := rfl
@[simp] theorem again_reads (op : HostOp) (s : State) : (again op s).reads = s.reads := rfl
@[simp] theorem again_prog (op : HostOp) (s : State) : (again op s).prog = op :: s.prog := rfl
@[simp] theorem again_turns (op : HostOp) (s : State) : (again op s).turns = s.turns := rfl
@[simp] theorem again_resetCount (op : HostOp) (s : State) : (again op s).resetCount = s.resetCount := rfl

/-! ### popOp -/

@[simp] theorem popOp_done (rest : List HostOp) (s : State) : (popOp rest s).done = s.done := rfl
@[simp] theorem popOp_err (rest : List HostOp) (s : State) : (popOp rest s).err = s.err := rfl
@[simp] theorem popOp_errCode (rest : List HostOp) (s : State) : (popOp rest s).errCode = s.errCode := rfl
@[simp] theorem popOp_legacySeg (rest : List HostOp) (s : State) : (popOp rest s).legacySeg = s.legacySeg := rfl
@[simp] theorem popOp_ctrlCode (rest : List HostOp) (s : State) : (popOp rest s).ctrlCode = s.ctrlCode := rfl
@[simp] theorem popOp_dst (rest : List HostOp) (s : State) : (popOp rest s).dst = s.dst := rfl
@[simp] theorem popOp_src (rest : List HostOp) (s : State) : (popOp rest s).src = s.src := rfl
@[simp] theorem popOp_len (rest : List HostOp) (s : State) : (popOp rest s).len = s.len := rfl
@[simp] theorem popOp_units (rest : List HostOp) (s : State) : (popOp rest s).units = s.units := rfl
@[simp] theorem popOp_phase (rest : List HostOp) (s : State) : (popOp rest s).phase = s.phase := rfl
@[simp] theorem popOp_lat (rest : List HostOp) (s : State) : (popOp rest s).lat = s.lat := rfl
@[simp] theorem popOp_inbuf (rest : List HostOp) (s : State) : (popOp rest s).inbuf = s.inbuf := rfl
@[simp] theorem popOp_outq (rest : List HostOp) (s : State) : (popOp rest s).outq = s.outq := rfl
@[simp] theorem popOp_hostIn (rest : List HostOp) (s : State) : (popOp rest s).hostIn = s.hostIn := rfl
@[simp] theorem popOp_hostOut (rest : List HostOp) (s : State) : (popOp rest s).hostOut = s.hostOut := rfl
@[simp] theorem popOp_reads (rest : List HostOp) (s : State) : (popOp rest s).reads = s.reads := rfl
@[simp] theorem popOp_prog (rest : List HostOp) (s : State) : (popOp rest s).prog = rest := rfl
@[simp] theorem popOp_turns (rest : List HostOp) (s : State) : (popOp rest s).turns = s.turns := rfl
@[simp] theorem popOp_resetCount (rest : List HostOp) (s : State) : (popOp rest s).resetCount = s.resetCount := rfl

/-! ### popTurn -/

@[simp] theorem popTurn_done (ts : List Turn) (s : State) : (popTurn ts s).done = s.done := rfl
@[simp] theorem popTurn_err (ts : List Turn) (s : State) : (popTurn ts s).err = s.err := rfl
@[simp] theorem popTurn_errCode (ts : List Turn) (s : State) : (popTurn ts s).errCode = s.errCode := rfl
@[simp] theorem popTurn_legacySeg (ts : List Turn) (s : State) : (popTurn ts s).legacySeg = s.legacySeg := rfl
@[simp] theorem popTurn_ctrlCode (ts : List Turn) (s : State) : (popTurn ts s).ctrlCode = s.ctrlCode := rfl
@[simp] theorem popTurn_dst (ts : List Turn) (s : State) : (popTurn ts s).dst = s.dst := rfl
@[simp] theorem popTurn_src (ts : List Turn) (s : State) : (popTurn ts s).src = s.src := rfl
@[simp] theorem popTurn_len (ts : List Turn) (s : State) : (popTurn ts s).len = s.len := rfl
@[simp] theorem popTurn_units (ts : List Turn) (s : State) : (popTurn ts s).units = s.units := rfl
@[simp] theorem popTurn_phase (ts : List Turn) (s : State) : (popTurn ts s).phase = s.phase := rfl
@[simp] theorem popTurn_lat (ts : List Turn) (s : State) : (popTurn ts s).lat = s.lat := rfl
@[simp] theorem popTurn_inbuf (ts : List Turn) (s : State) : (popTurn ts s).inbuf = s.inbuf := rfl
@[simp] theorem popTurn_outq (ts : List Turn) (s : State) : (popTurn ts s).outq = s.outq := rfl
@[simp] theorem popTurn_hostIn (ts : List Turn) (s : State) : (popTurn ts s).hostIn = s.hostIn := rfl
@[simp] theorem popTurn_hostOut (ts : List Turn) (s : State) : (popTurn ts s).hostOut = s.hostOut := rfl
@[simp] theorem popTurn_reads (ts : List Turn) (s : State) : (popTurn ts s).reads = s.reads := rfl
@[simp] theorem popTurn_prog (ts : List Turn) (s : State) : (popTurn ts s).prog = s.prog := rfl
@[simp] theorem popTurn_turns (ts : List Turn) (s : State) : (popTurn ts s).turns = ts := rfl
@[simp] theorem popTurn_resetCount (ts : List Turn) (s : State) : (popTurn ts s).resetCount = s.resetCount := rfl

/-! ### State.withFetchWord -/

@[simp] theorem State.withFetchWord_done (s : State) (nbits w : Nat) : (s.withFetchWord nbits w).done = s.done := rfl
@[simp] theorem State.withFetchWord_err (s : State) (nbits w : Nat) : (s.withFetchWord nbits w).err = s.err := rfl
@[simp] theorem State.withFetchWord_errCode (s : State) (nbits w : Nat) : (s.withFetchWord nbits w).errCode = s.errCode := rfl
@[simp] theorem State.withFetchWord_legacySeg (s : State) (nbits w : Nat) : (s.withFetchWord nbits w).legacySeg = s.legacySeg := rfl
@[simp] theorem State.withFetchWord_ctrlCode (s : State) (nbits w : Nat) : (s.withFetchWord nbits w).ctrlCode = s.ctrlCode := rfl
@[simp] theorem State.withFetchWord_dst (s : State) (nbits w : Nat) : (s.withFetchWord nbits w).dst = s.dst := rfl
@[simp] theorem State.withFetchWord_src (s : State) (nbits w : Nat) : (s.withFetchWord nbits w).src = s.src := rfl
@[simp] theorem State.withFetchWord_len (s : State) (nbits w : Nat) : (s.withFetchWord nbits w).len = s.len := rfl
@[simp] theorem State.withFetchWord_units (s : State) (nbits w : Nat) : (s.withFetchWord nbits w).units = s.units := rfl
@[simp] theorem State.withFetchWord_phase (s : State) (nbits w : Nat) : (s.withFetchWord nbits w).phase = s.phase := rfl
@[simp] theorem State.withFetchWord_lat (s : State) (nbits w : Nat) : (s.withFetchWord nbits w).lat = s.lat := rfl
@[simp] theorem State.withFetchWord_inbuf (s : State) (nbits w : Nat) : (s.withFetchWord nbits w).inbuf = s.inbuf := rfl
@[simp] theorem State.withFetchWord_outq (s : State) (nbits w : Nat) : (s.withFetchWord nbits w).outq = s.outq := rfl
@[simp] theorem State.withFetchWord_hostIn (s : State) (nbits w : Nat) : (s.withFetchWord nbits w).hostIn = s.hostIn := rfl
@[simp] theorem State.withFetchWord_hostOut (s : State) (nbits w : Nat) : (s.withFetchWord nbits w).hostOut = s.hostOut := rfl
@[simp] theorem State.withFetchWord_reads (s : State) (nbits w : Nat) : (s.withFetchWord nbits w).reads = s.reads := rfl
@[simp] theorem State.withFetchWord_prog (s : State) (nbits w : Nat) : (s.withFetchWord nbits w).prog = wrReg .cmd (tableWord nbits w) :: s.prog := rfl
@[simp] theorem State.withFetchWord_turns (s : State) (nbits w : Nat) : (s.withFetchWord nbits w).turns = .host :: s.turns := rfl
@[simp] theorem State.withFetchWord_resetCount (s : State) (nbits w : Nat) : (s.withFetchWord nbits w).resetCount = s.resetCount := rfl

end Sys2Proof.Machine
end

