-- ==== Sys2Proof/Laws/Ops.lean ====
section
/-! SUPPORT. One lemma per shared operation that says once what it can do, for later proofs to cite. -/

namespace Sys2Proof.Machine

/-! ### The conditions of a CMD write -/

theorem maxLen_ge : 250 ≤ Config.maxLen := Nat.le_add_left _ _

theorem maxLen_le : Config.maxLen ≤ 0xFFFFFFFF := by
  have := Config.maxLenAbove250.isLt
  unfold Config.maxLen
  omega

@[simp] theorem dstOutOfRange_iff (s : State) : dstOutOfRange s = true ↔ 0xFFFF < s.dst.toNat := by
  simp [dstOutOfRange]

@[simp] theorem srcOutOfRange_iff (s : State) : srcOutOfRange s = true ↔ 0xFFFF < s.src.toNat := by
  simp [srcOutOfRange]

@[simp] theorem lenOverSegment_iff (s : State) : lenOverSegment s = true ↔ 250 < s.len.toNat := by
  simp [lenOverSegment]

/-- CAPACITY is LEN > MAX_LEN (60_exceptions.md R253). -/
@[simp] theorem lenOverCapacity_iff (s : State) :
    lenOverCapacity s = true ↔ Config.maxLen < s.len.toNat := by
  have := maxLen_ge
  simp only [lenOverCapacity, segMax, Bool.and_eq_true, decide_eq_true_eq]
  omega

theorem firstError_eq_none_iff (cs : List (Bool × ErrCode)) :
    firstError cs = none ↔ ∀ p ∈ cs, p.1 = false := by
  induction cs with
  | nil => simp [firstError]
  | cons p rest ih => obtain ⟨b, c⟩ := p; cases b <;> simp [firstError, ih]

theorem mem_of_firstError {cs : List (Bool × ErrCode)} {c : ErrCode} (h : firstError cs = some c) :
    (true, c) ∈ cs := by
  induction cs with
  | nil => simp [firstError] at h
  | cons p rest ih =>
    obtain ⟨b, d⟩ := p
    cases b <;> simp [firstError] at h
    · exact List.mem_cons_of_mem _ (ih h)
    · simp [h]

/-- One test after another. -/
theorem firstError_cons (b : Bool) (c : ErrCode) (cs : List (Bool × ErrCode)) :
    firstError ((b, c) :: cs) = if b = true then some c else firstError cs := by
  cases b <;> simp [firstError]

@[simp] theorem firstError_nil : firstError [] = none := rfl

/-! ### Rejecting and accepting -/

theorem whenIdle_of_idle {f : State → State} {s : State} (h : s.phase = .idle) : whenIdle f s = f s := by
  simp [whenIdle, h]

theorem whenIdle_of_busy {f : State → State} {s : State} (h : s.phase ≠ .idle) : whenIdle f s = s := by
  cases hp : s.phase <;> simp_all [whenIdle]

theorem accept_of_len_zero {i : Instr} {s : State} (h : s.len.toNat = 0) :
    accept i s = finishLoad (latchCommand i s) := by simp [accept, h]

theorem accept_of_len_pos {i : Instr} {s : State} (h : s.len.toNat ≠ 0) :
    accept i s = awaitInput (latchCommand i s) := by simp [accept, h]

/-- What an acceptance writes whatever LEN is, and what it leaves. -/
theorem accept_fields (i : Instr) (s : State) :
    (accept i s).lat = latch i s ∧ (accept i s).err = false ∧ (accept i s).errCode = .none ∧
    (accept i s).done = false ∧
    (accept i s).units = BitVec.ofNat 32 (unitCount i s.len.toNat s.legacySeg) ∧
    (accept i s).inbuf = [] ∧ (accept i s).phase ≠ .idle ∧
    (accept i s).legacySeg = s.legacySeg ∧ (accept i s).ctrlCode = s.ctrlCode ∧
    (accept i s).dst = s.dst ∧ (accept i s).src = s.src ∧ (accept i s).len = s.len ∧
    (accept i s).hostIn = s.hostIn ∧ (accept i s).hostOut = s.hostOut ∧
    (accept i s).reads = s.reads ∧ (accept i s).prog = s.prog ∧ (accept i s).turns = s.turns ∧
    (accept i s).resetCount = s.resetCount := by
  unfold accept
  split <;> simp

theorem evaluate_cases (i : Instr) (checks : List (Bool × ErrCode)) (s : State) :
    (∃ c, firstError checks = some c ∧ evaluate i checks s = reject c s) ∨
    (firstError checks = none ∧ evaluate i checks s = accept i s) := by
  cases h : firstError checks with
  | none => exact .inr ⟨rfl, by simp [evaluate, h]⟩
  | some c => exact .inl ⟨c, rfl, by simp [evaluate, h]⟩

/-- The tests a command makes, in their order (40_command_interface.md R122). -/
def checksOf (i : Instr) (s : State) : List (Bool × ErrCode) :=
  match i with
  | .buildFrames =>
    [(dstOutOfRange s, .dstRange), (srcOutOfRange s, .srcRange), (lenOverCapacity s, .capacity)]
  | .fragment => [(lenOverCapacity s, .capacity)]
  | .buildFrame =>
    [(dstOutOfRange s, .dstRange), (srcOutOfRange s, .srcRange), (lenOverSegment s, .lenRange),
      (lenOverCapacity s, .capacity)]
  | .checksum => [(lenOverCapacity s, .capacity)]

/-- Every command is one evaluation of its tests, in IDLE. -/
theorem exec_eq (i : Instr) (s : State) :
    exec i s = .next (whenIdle (fun s => evaluate i (checksOf i s) s) s) := by
  cases i <;> rfl

theorem checksOf_ne_none {i : Instr} {s : State} {c : ErrCode} (h : firstError (checksOf i s) = some c) :
    c ≠ .none := by
  have := mem_of_firstError h
  cases i <;> simp [checksOf] at this <;> grind

/-- What the tests passed say of the state. -/
theorem checksOf_passed {i : Instr} {s : State} (h : firstError (checksOf i s) = none) :
    s.len.toNat ≤ Config.maxLen ∧ (i = .buildFrame → s.len.toNat ≤ 250) ∧
    (i = .buildFrame ∨ i = .buildFrames → s.dst.toNat ≤ 0xFFFF ∧ s.src.toNat ≤ 0xFFFF) := by
  have h1 := lenOverCapacity_iff s
  have h2 := lenOverSegment_iff s
  have h3 := dstOutOfRange_iff s
  have h4 := srcOutOfRange_iff s
  rw [firstError_eq_none_iff] at h
  cases i <;> simp [checksOf] at h <;> simp_all

/-- Everything a command word can do: nothing while busy, else one rejection or the acceptance. -/
theorem exec_cases {i : Instr} {s t : State} (h : exec i s = .next t) :
    (s.phase ≠ .idle ∧ t = s) ∨
    (s.phase = .idle ∧ ∃ c, c ≠ .none ∧ firstError (checksOf i s) = some c ∧ t = reject c s) ∨
    (s.phase = .idle ∧ firstError (checksOf i s) = none ∧ t = accept i s) := by
  rw [exec_eq] at h
  obtain rfl := Host.Outcome.next.inj h
  by_cases hp : s.phase = .idle
  · rw [whenIdle_of_idle hp]
    rcases evaluate_cases i (checksOf i s) s with ⟨c, hc, he⟩ | ⟨hn, he⟩
    · exact .inr (.inl ⟨hp, c, checksOf_ne_none hc, hc, he⟩)
    · exact .inr (.inr ⟨hp, hn, he⟩)
  · exact .inl ⟨hp, whenIdle_of_busy hp⟩

/-! ### Streams -/

/-- Everything an IN transfer can do. -/
theorem inTransfer_cases (s : State) :
    ((s.phase ≠ .load ∨ s.hostIn = []) ∧ inTransfer s = s) ∨
    (∃ b rest, s.phase = .load ∧ s.hostIn = b :: rest ∧
      ((s.inbuf.length + 1 = s.lat.len ∧ inTransfer s = finishLoad (takeByte b rest s)) ∨
       (s.inbuf.length + 1 ≠ s.lat.len ∧ inTransfer s = takeByte b rest s))) := by
  unfold inTransfer
  split
  · rename_i b rest hp hi
    refine .inr ⟨b, rest, hp, hi, ?_⟩
    split
    · exact .inl ⟨‹_›, rfl⟩
    · exact .inr ⟨‹_›, rfl⟩
  · rename_i hne
    refine .inl ⟨?_, rfl⟩
    by_cases hp : s.phase = .load
    · right
      cases hi : s.hostIn with
      | nil => rfl
      | cons b rest => exact absurd hi (hne b rest hp)
    · exact .inl hp

/-- Everything an OUT transfer can do. -/
theorem outTransfer_cases (s : State) :
    ((s.phase ≠ .emit ∨ s.outq = []) ∧ outTransfer s = s) ∨
    (∃ b, s.phase = .emit ∧ s.outq = [b] ∧ outTransfer s = completeCommand (deliverBeat b [] s)) ∨
    (∃ b b' rest, s.phase = .emit ∧ s.outq = b :: b' :: rest ∧
      outTransfer s = deliverBeat b (b' :: rest) s) := by
  unfold outTransfer
  split
  · rename_i b rest hp hq
    cases rest with
    | nil => exact .inr (.inl ⟨b, hp, hq, by simp⟩)
    | cons b' rest => exact .inr (.inr ⟨b, b', rest, hp, hq, by simp⟩)
  · rename_i hne
    refine .inl ⟨?_, rfl⟩
    by_cases hp : s.phase = .emit
    · right
      cases hq : s.outq with
      | nil => rfl
      | cons b rest => exact absurd hq (hne b rest hp)
    · exact .inl hp

theorem offeredBeat_eq_some_iff (s : State) (b : Beat) :
    offeredBeat s = some b ↔ s.phase = .emit ∧ ∃ rest, s.outq = b :: rest := by
  unfold offeredBeat
  cases hp : s.phase <;> simp
  cases hq : s.outq <;> simp

/-! ### Beats -/

theorem byteBeats_ne_nil {last : Bool} {u : List Byte} (h : u ≠ []) : byteBeats last u ≠ [] := by
  match u, h with
  | [b], _ => simp [byteBeats]
  | b :: b' :: bs, _ => simp [byteBeats]

theorem unitBeats_ne_nil (u : List Byte) (last : Bool) : unitBeats u last ≠ [] := by
  unfold unitBeats
  split
  · simp
  · exact byteBeats_ne_nil ‹_›

theorem beats_ne_nil {us : List (List Byte)} (h : us ≠ []) : beats us ≠ [] := by
  match us, h with
  | [u], _ => exact unitBeats_ne_nil u true
  | u :: u' :: us, _ => simp [beats, unitBeats_ne_nil]

theorem result_ne_nil (lat : Latched) (data : List Byte) : result lat data ≠ [] := by
  unfold result
  split
  · simp [buildFrames, fragment_ne_nil]
  · exact fragment_ne_nil _ _
  · simp
  · simp

/-- The output of a command is never empty. -/
theorem output_ne_nil (lat : Latched) (data : List Byte) : beats (result lat data) ≠ [] :=
  beats_ne_nil (result_ne_nil lat data)

end Sys2Proof.Machine
end

