-- ==== Sys2Proof/Laws/PerInstr.lean ====
section
/-! SUPPORT. What is said of every command as syntax, one lemma per constructor. -/

/-- The word of a command has its reserved bits zero, and OP in 0x1 to 0x4 (30_encoding.md R80). -/
def Sys2Proof.Laws.ReservedBitsZero.Statement (i : Sys2Proof.Instr) : Prop :=
  i.wf = true ∧ (Sys2Proof.encode i).extractLsb' 4 28 = 0#28 ∧
    1 ≤ ((Sys2Proof.encode i).extractLsb' 0 4).toNat ∧ ((Sys2Proof.encode i).extractLsb' 0 4).toNat ≤ 4

theorem Sys2Proof.Laws.ReservedBitsZero.buildFrames :
    Sys2Proof.Laws.ReservedBitsZero.Statement .buildFrames := by
  unfold Sys2Proof.Laws.ReservedBitsZero.Statement; decide

theorem Sys2Proof.Laws.ReservedBitsZero.fragment :
    Sys2Proof.Laws.ReservedBitsZero.Statement .fragment := by
  unfold Sys2Proof.Laws.ReservedBitsZero.Statement; decide

theorem Sys2Proof.Laws.ReservedBitsZero.buildFrame :
    Sys2Proof.Laws.ReservedBitsZero.Statement .buildFrame := by
  unfold Sys2Proof.Laws.ReservedBitsZero.Statement; decide

theorem Sys2Proof.Laws.ReservedBitsZero.checksum :
    Sys2Proof.Laws.ReservedBitsZero.Statement .checksum := by
  unfold Sys2Proof.Laws.ReservedBitsZero.Statement; decide
end

