-- ==== Sys2Proof/Laws/Step.lean ====
section
/-! SUPPORT. What an access of the register port, an operation of the host and one step of the machine can
do, said once, with the invariant of the block's own operations. -/

namespace Sys2Proof.Machine

/-! ### The register port -/

/-- The port admits exactly the aligned 32-bit accesses inside the window (20_memory.md R60). -/
theorem accessRefusal_eq_none_iff (w : Width) (off : Nat) :
    accessRefusal w off = none ↔ w = .word ∧ off % 4 = 0 ∧ off < 0x40 := by
  unfold accessRefusal Width.wf offsetAligned offsetInWindow
  cases w <;> simp
  split <;> simp_all

/-- The address map has each register at its own offset only (20_memory.md R63). -/
theorem eq_offset_of_regAt {off : Nat} {r : Reg} (h : regAt off = some r) : off = r.offset := by
  unfold regAt at h
  repeat' split at h
  all_goals simp at h
  all_goals subst h; simpa [Reg.offset]

/-- Everything a register write can do. -/
theorem regWrite_cases {off : Nat} {v : Word} {s t : State} (h : regWrite off v s = .next t) :
    t = s ∨ (off = 0 ∧ ∃ i, decode v = .ok i ∧ exec i s = .next t) ∨
    (off = 0 ∧ (∃ e, decode v = .error e) ∧ t = illegalCommand s) ∨
    (off = 0x08 ∧ t = writeConfig v s) ∨ (off = 0x0C ∧ t = writeCtrlCode v s) ∨
    (off = 0x10 ∧ t = writeDst v s) ∨ (off = 0x14 ∧ t = writeSrc v s) ∨
    (off = 0x18 ∧ t = writeLen v s) := by
  unfold regWrite at h
  cases hr : regAt off with
  | none => rw [hr] at h; exact .inl (Host.Outcome.next.inj h).symm
  | some r =>
    have ho := eq_offset_of_regAt hr
    rw [hr] at h
    cases r with
    | cmd =>
      simp only [writeCmd] at h
      cases hd : decode v with
      | ok i => rw [hd] at h; exact .inr (.inl ⟨ho, i, rfl, h⟩)
      | error e => rw [hd] at h; exact .inr (.inr (.inl ⟨ho, ⟨e, rfl⟩, (Host.Outcome.next.inj h).symm⟩))
    | status => exact .inl (Host.Outcome.next.inj h).symm
    | units => exact .inl (Host.Outcome.next.inj h).symm
    | config => exact .inr (.inr (.inr (.inl ⟨ho, (Host.Outcome.next.inj h).symm⟩)))
    | ctrlCode => exact .inr (.inr (.inr (.inr (.inl ⟨ho, (Host.Outcome.next.inj h).symm⟩))))
    | dst => exact .inr (.inr (.inr (.inr (.inr (.inl ⟨ho, (Host.Outcome.next.inj h).symm⟩)))))
    | src => exact .inr (.inr (.inr (.inr (.inr (.inr (.inl ⟨ho, (Host.Outcome.next.inj h).symm⟩))))))
    | len => exact .inr (.inr (.inr (.inr (.inr (.inr (.inr ⟨ho, (Host.Outcome.next.inj h).symm⟩))))))

/-- A register write is never refused. -/
theorem regWrite_next (off : Nat) (v : Word) (s : State) : ∃ t, regWrite off v s = .next t := by
  unfold regWrite
  split <;> try exact ⟨_, rfl⟩
  unfold writeCmd
  split
  · exact ⟨_, exec_eq _ s⟩
  · exact ⟨_, rfl⟩

/-! ### The host's operations -/

/-- A host operation stops only on an access the port does not admit (20_memory.md R60). -/
theorem hostOp_refused_iff (op : HostOp) (s : State) :
    (∃ r, hostOp op s = .refused r) ↔ op.wf = false := by
  have hacc : ∀ w off, accessRefusal w off = none ↔ (w.wf && offsetAligned off && offsetInWindow off) = true := by
    intro w off
    unfold accessRefusal
    cases w.wf <;> cases offsetAligned off <;> cases offsetInWindow off <;> simp
  have key : ∀ w off, (∃ r, accessRefusal w off = some r) ↔
      (w.wf && offsetAligned off && offsetInWindow off) = false := by
    intro w off
    rw [← Option.isSome_iff_exists, ← Option.ne_none_iff_isSome, ne_eq, hacc, Bool.not_eq_true]
  cases op with
  | wr w off v =>
    rw [show HostOp.wf (.wr w off v) = (w.wf && offsetAligned off && offsetInWindow off) from rfl, ← key]
    obtain ⟨t, ht⟩ := regWrite_next off v s
    cases h : accessRefusal w off <;> simp [hostOp, hostWrite, h, ht]
  | rd w off =>
    rw [show HostOp.wf (.rd w off) = (w.wf && offsetAligned off && offsetInWindow off) from rfl, ← key]
    cases h : accessRefusal w off <;> simp [hostOp, hostRead, h]
  | poll off mask val =>
    rw [show HostOp.wf (.poll off mask val) = (Width.word.wf && offsetAligned off && offsetInWindow off) by
      simp [HostOp.wf, Width.wf], ← key]
    cases h : accessRefusal .word off <;> simp only [hostOp, hostPoll, h]
    · split <;> simp
    · simp
  | push bytes => simp [hostOp, HostOp.wf]
  | pull => simp [hostOp, HostOp.wf]
  | pullAll => simp [hostOp, HostOp.wf]

/-- Everything a host operation can do to the block: leave it alone, write a register, or take a beat. -/
theorem hostOp_cases {op : HostOp} {s t : State} (h : hostOp op s = .next t) :
    (SameBlock s t ∧ t.hostOut = s.hostOut) ∨
    (∃ v i, op = .wr .word 0 v ∧ decode v = .ok i ∧ exec i s = .next t) ∨
    (∃ v e, op = .wr .word 0 v ∧ decode v = .error e ∧ t = illegalCommand s) ∨
    (∃ w off v, op = .wr w off v ∧ SameCommand s t ∧ SameStreams s t) ∨
    (∃ b t', offeredBeat s = some b ∧ (op = .pull ∨ op = .pullAll) ∧ t' = outTransfer s ∧ (t = t' ∨ t = again .pullAll t')) := by
  have inj : ∀ {a b : State}, Host.Outcome.next (φ := Fault) (ρ := Refusal) a = .next b → b = a :=
    fun h => (Host.Outcome.next.inj h).symm
  have same : ∀ s : State, SameBlock s s := fun s => ⟨⟨rfl, rfl, rfl, rfl, rfl⟩, ⟨rfl, rfl, rfl, rfl, rfl, rfl, rfl, rfl⟩⟩
  cases op with
  | wr w off v =>
    simp only [hostOp, hostWrite] at h
    cases hr : accessRefusal w off with
    | some r => rw [hr] at h; exact absurd h (by simp)
    | none =>
      rw [hr] at h
      obtain ⟨rfl, -, -⟩ := (accessRefusal_eq_none_iff w off).1 hr
      rcases regWrite_cases h with rfl | ⟨rfl, i, hd, he⟩ | ⟨rfl, ⟨e, hd⟩, rfl⟩ | hw
      · exact .inl ⟨same _, rfl⟩
      · exact .inr (.inl ⟨v, i, rfl, hd, he⟩)
      · exact .inr (.inr (.inl ⟨v, e, rfl, hd, rfl⟩))
      · refine .inr (.inr (.inr (.inl ⟨_, off, v, rfl, ?_, ?_⟩)))
        all_goals rcases hw with ⟨-, rfl⟩ | ⟨-, rfl⟩ | ⟨-, rfl⟩ | ⟨-, rfl⟩ | ⟨-, rfl⟩
        all_goals constructor <;> rfl
  | rd w off =>
    simp only [hostOp, hostRead] at h
    cases hr : accessRefusal w off with
    | some r => rw [hr] at h; exact absurd h (by simp)
    | none =>
      rw [hr] at h
      obtain rfl := inj h
      exact .inl ⟨⟨⟨rfl, rfl, rfl, rfl, rfl⟩, ⟨rfl, rfl, rfl, rfl, rfl, rfl, rfl, rfl⟩⟩, rfl⟩
  | push bytes =>
    obtain rfl := inj h
    refine .inl ?_
    unfold hostPush
    split <;> exact ⟨⟨⟨rfl, rfl, rfl, rfl, rfl⟩, ⟨rfl, rfl, rfl, rfl, rfl, rfl, rfl, rfl⟩⟩, rfl⟩
  | pull =>
    obtain rfl := inj h
    unfold hostPull
    cases ho : offeredBeat s with
    | none => exact .inl ⟨⟨⟨rfl, rfl, rfl, rfl, rfl⟩, ⟨rfl, rfl, rfl, rfl, rfl, rfl, rfl, rfl⟩⟩, rfl⟩
    | some b => exact .inr (.inr (.inr (.inr ⟨b, _, rfl, .inl rfl, rfl, .inl rfl⟩)))
  | pullAll =>
    obtain rfl := inj h
    unfold hostPullAll
    cases ho : offeredBeat s with
    | none => exact .inl ⟨⟨⟨rfl, rfl, rfl, rfl, rfl⟩, ⟨rfl, rfl, rfl, rfl, rfl, rfl, rfl, rfl⟩⟩, rfl⟩
    | some b =>
      refine .inr (.inr (.inr (.inr ⟨b, _, rfl, .inr rfl, rfl, ?_⟩)))
      cases he : b.eom <;> simp [he]
  | poll off mask val =>
    simp only [hostOp, hostPoll] at h
    cases hr : accessRefusal .word off with
    | some r => rw [hr] at h; exact absurd h (by simp)
    | none =>
      rw [hr] at h
      simp only at h
      split at h <;> obtain rfl := inj h <;>
        exact .inl ⟨⟨⟨rfl, rfl, rfl, rfl, rfl⟩, ⟨rfl, rfl, rfl, rfl, rfl, rfl, rfl, rfl⟩⟩, rfl⟩

/-! ### One step -/

theorem step_of_input {s : State} {ts : List Turn} (h : s.turns = .input :: ts) :
    step s = .next (inTransfer (popTurn ts s)) := by simp [step, takeTurn, h, runTurn]

theorem step_of_reset {s : State} {ts : List Turn} (h : s.turns = .reset :: ts) :
    step s = .next (blockReset (popTurn ts s)) := by simp [step, takeTurn, h, runTurn]

theorem step_of_host {s : State} {ts : List Turn} {op : HostOp} {p : List HostOp}
    (h : s.turns = .host :: ts) (hp : s.prog = op :: p) :
    step s = hostOp op (popOp p (popTurn ts s)) := by simp [step, takeTurn, h, runTurn, hostTurn, hp]

/-- Everything one step of the machine can do when it goes on. -/
theorem step_cases {s t : State} (h : step s = .next t) :
    (s.turns = [] ∧ t = s) ∨
    (∃ ts, s.turns = .input :: ts ∧ t = inTransfer (popTurn ts s)) ∨
    (∃ ts, s.turns = .reset :: ts ∧ t = blockReset (popTurn ts s)) ∨
    (∃ ts, s.turns = .host :: ts ∧ s.prog = [] ∧ t = popTurn ts s) ∨
    (∃ ts op rest, s.turns = .host :: ts ∧ s.prog = op :: rest ∧
      hostOp op (popOp rest (popTurn ts s)) = .next t) := by
  have inj : ∀ {a b : State}, Host.Outcome.next (φ := Fault) (ρ := Refusal) a = .next b → b = a :=
    fun h => (Host.Outcome.next.inj h).symm
  unfold step takeTurn at h
  cases ht : s.turns with
  | nil => rw [ht] at h; exact .inl ⟨rfl, inj h⟩
  | cons u ts =>
    rw [ht] at h
    cases u with
    | input => exact .inr (.inl ⟨ts, rfl, inj h⟩)
    | reset => exact .inr (.inr (.inl ⟨ts, rfl, inj h⟩))
    | host =>
      simp only [runTurn, hostTurn, popTurn_prog] at h
      cases hp : s.prog with
      | nil => rw [hp] at h; exact .inr (.inr (.inr (.inl ⟨ts, rfl, rfl, inj h⟩)))
      | cons op rest => rw [hp] at h; exact .inr (.inr (.inr (.inr ⟨ts, op, rest, rfl, rfl, h⟩)))

/-- A step is refused only for a host operation outside the port's interface. -/
theorem step_refused {s : State} {r : Refusal} (h : step s = .refused r) :
    ∃ ts op rest, s.turns = .host :: ts ∧ s.prog = op :: rest ∧ op.wf = false := by
  unfold step takeTurn at h
  cases ht : s.turns with
  | nil => rw [ht] at h; simp at h
  | cons u ts =>
    rw [ht] at h
    cases u with
    | input => simp [runTurn] at h
    | reset => simp [runTurn] at h
    | host =>
      simp only [runTurn, hostTurn, popTurn_prog] at h
      cases hp : s.prog with
      | nil => rw [hp] at h; simp at h
      | cons op rest =>
        rw [hp] at h
        exact ⟨ts, op, rest, rfl, rfl, (hostOp_refused_iff op _).1 ⟨r, h⟩⟩

end Sys2Proof.Machine
end

