-- ==== Sys2Proof/Laws/Run.lean ====
section
/-! SUPPORT. Runs of several steps, one step or one part at a time. -/

namespace Sys2Proof.Machine

@[simp] theorem steps_zero (s : State) : steps 0 s = .next s := rfl

/-- A run whose first step goes on is the rest of the run from there. -/
theorem steps_succ {s t : State} (k : Nat) (h : step s = .next t) : steps (k + 1) s = steps k t := by
  simp only [steps, h]

/-- A run in two parts. -/
theorem steps_add {s t : State} {a : Nat} (b : Nat) (h : steps a s = .next t) :
    steps (a + b) s = steps b t := by
  induction a generalizing s with
  | zero => cases h; rw [Nat.zero_add]
  | succ a ih =>
    rw [Nat.add_right_comm]
    cases hs : step s with
    | next s' =>
      rw [steps_succ _ hs] at h ⊢
      exact ih h
    | fault r => cases r
    | refused r => simp [steps, hs] at h

/-- `steps` is the run of the machine behind Host/Core.lean. -/
theorem steps_eq_run (k : Nat) (s : State) : steps k s = Host.Core.run Sys2Proof.core k s := by
  induction k generalizing s with
  | zero => rfl
  | succ k ih =>
    show (match step s with
      | .next t => steps k t
      | .fault r => .fault r
      | .refused r => .refused r) = _
    cases hs : step s with
    | next t =>
      have h' : Sys2Proof.core.step s = .next t := hs
      refine (ih t).trans ?_
      simp only [Host.Core.run, h']; rfl
    | fault r => cases r
    | refused r =>
      have h' : Sys2Proof.core.step s = .refused r := hs
      simp only [Host.Core.run, h']; rfl

end Sys2Proof.Machine
end

