-- ==== Sys2Proof/Tests/Slice0.lean ====
section
/-! SUPPORT. Tests. Expected results are those of spec/95_test_vectors.md, or are written out from the rule
named; then, for every statement with hypotheses, a concrete state and operands that meet them. -/

open Sys2Proof
open Sys2Proof.Machine

/-! ## Well-formedness: each check refuses an ill-formed term (R60) -/

theorem test_wf_byte_access : (HostOp.wr .byte 0x00 0#32).wf = false := by decide
theorem test_wf_half_access : (HostOp.rd .half 0x04).wf = false := by decide
theorem test_wf_misaligned : (HostOp.wr .word 0x02 0#32).wf = false := by decide
theorem test_wf_outside_window : (HostOp.rd .word 0x40).wf = false := by decide
theorem test_wf_poll_misaligned : (HostOp.poll 0x05 0#32 0#32).wf = false := by decide
theorem test_wf_last_offset : (HostOp.rd .word 0x3C).wf = true := by decide

/-! ## Decoding: words written out bit by bit from R80 -/

theorem test_decode_buildFrames :
    decode 0b0000000000000000000000000000_0001#32 = .ok .buildFrames := by decide
theorem test_decode_fragment :
    decode 0b0000000000000000000000000000_0010#32 = .ok .fragment := by decide
theorem test_decode_buildFrame :
    decode 0b0000000000000000000000000000_0011#32 = .ok .buildFrame := by decide
theorem test_decode_checksum :
    decode 0b0000000000000000000000000000_0100#32 = .ok .checksum := by decide
/-- 95_test_vectors.md L2.7 I-e, I-f, I-g. -/
theorem test_decode_illegal :
    decode 0x00000005#32 = .error .noSuchOp ∧ decode 0x00000011#32 = .error .reservedBits ∧
    decode 0x80000003#32 = .error .reservedBits := by decide
theorem test_decodeTableWord :
    decodeTableWord 32 3 = some .buildFrame ∧ decodeTableWord 8 4 = some .checksum ∧
    decodeTableWord 32 0x13 = none ∧ decodeTableWord 40 (2 ^ 32 + 1) = none := by decide

/-! ## Fixed-value checks of the functions (L2.1, L2.2) -/

theorem test_seqByte :
    seqByte 0 2 = 0x40#8 ∧ seqByte 1 2 = 0x81#8 ∧ seqByte 63 100 = 0x3F#8 ∧ seqByte 64 100 = 0x00#8 ∧
    seqByte 64 65 = 0x80#8 ∧ seqByte 65 66 = 0x81#8 := by decide
theorem test_segCount_legacy :
    [0, 250, 251, 499, 500, 501, 750, 751, 16001, 16250].map (segCount · true)
      = [1, 1, 2, 2, 2, 3, 3, 4, 65, 65] := by decide
theorem test_segCount_corrected :
    [0, 250, 251, 499, 500, 501, 750, 751, 16001, 16250].map (segCount · false)
      = [1, 1, 2, 3, 3, 3, 4, 4, 65, 66] := by decide
/-- L1.4: 33 bytes make chunks of 16, 16 and 1. -/
theorem test_chunks_33 : (chunks (List.replicate 33 0#8)).map List.length = [16, 16, 1] := by
  decide +kernel

/-! ## The four commands, one step each, from reset -/

/-- What the tests look at after a step. -/
def Sys2Proof.Machine.after (o : Host.Outcome State Fault Refusal) (f : State → α) : Option α :=
  match o with
  | .next s => some (f s)
  | .fault _ => none
  | .refused _ => none

set_option maxRecDepth 4000 in
/-- L1.1: LEN = 0 gives one frame of 10 bytes, EMIT at once. -/
theorem test_buildFrames_empty :
    after (step (State.reset.withFetchWord 32 1)) (fun s => (s.status, s.units, s.outq.map (·.data)))
      = some (0x201#32, 1#32, [Config.sync0, Config.sync1, 0x05#8, 0x44#8, 0#8, 0#8, 0#8, 0#8]
          ++ le16 (Config.crc16 [Config.sync0, Config.sync1, 0x05#8, 0x44#8, 0#8, 0#8, 0#8, 0#8])) := by rfl
/-- L2.6 M-e: LEN = 499 legacy gives UNITS = 2, phase LOAD; P2 step 5: DST = 0x10000 is rejected. -/
theorem test_buildFrames_dst_range :
    after (exec .buildFrames { State.reset with dst := 0x10000#32 }) (fun s => (s.status, s.units))
      = some (0x24#32, 0#32) := by decide
/-- P5 step 5: the empty unit is one beat 0x700. -/
theorem test_fragment_empty :
    after (step (State.reset.withFetchWord 32 2)) (fun s => s.outq.map Beat.pack) = some [0x700#11] := by decide
/-- L2.3: FRAGMENT ignores DST. -/
theorem test_fragment_ignores_dst :
    after (exec .fragment { State.reset with dst := 0x10000#32, len := 5#32 }) State.status
      = some 0x101#32 := by decide
/-- L2.4 B-r5: SRC_RANGE wins over LEN_RANGE. -/
theorem test_buildFrame_src_range :
    after (exec .buildFrame { State.reset with src := 0x10000#32, len := 300#32 }) State.status
      = some 0x34#32 := by decide
/-- L2.4 B-r3: LEN = 251 is LEN_RANGE. -/
theorem test_buildFrame_len_range :
    after (exec .buildFrame { State.reset with len := 251#32 }) (fun s => (s.status, s.units))
      = some (0x44#32, 0#32) := by decide
/-- P4 step 2: LEN = 9 waits in LOAD with UNITS = 1. -/
theorem test_checksum_loads :
    after (exec .checksum { State.reset with len := 9#32 }) (fun s => (s.status, s.units))
      = some (0x101#32, 1#32) := by decide
/-- L2.7 I-i: a command word in LOAD is ignored. -/
theorem test_busy_ignores (s : State) (h : s.phase = .load) :
    after (exec .checksum s) (fun t => t) = some s := by
  rw [exec_eq, whenIdle_of_busy (by simp [h])]; rfl
/-- L2.7 I-n: only bit 0 of CONFIG is stored; L2.4: CTRLCODE keeps [7:0]. -/
theorem test_writes_keep_fields :
    regRead 0x08 (writeConfig 0xFFFFFFFE#32 State.reset) = 0#32 ∧
    regRead 0x0C (writeCtrlCode 0x1C4#32 State.reset) = 0xC4#32 := by decide

/-! ## Concrete bytes under the named premises of G1 and G2 (general knowledge, log 12) -/

/-- R217's check value. -/
theorem test_crcDnp_check_value :
    crcDnp [0x31#8, 0x32#8, 0x33#8, 0x34#8, 0x35#8, 0x36#8, 0x37#8, 0x38#8, 0x39#8] = 0xEA82#16 := by
  decide +kernel
/-- L2.5 K-f: 01 02 03 gives beats 040 3A7. -/
theorem test_checksum_bytes (h : Config.crc16 = crcDnp) (lat : Latched) (ho : lat.op = .checksum) :
    (beats (result lat [0x01#8, 0x02#8, 0x03#8])).map Beat.pack = [0x040#11, 0x3A7#11] := by
  simp only [result, ho, checksum, h]
  decide +kernel
/-- L2.4 B-d: the quoted frame 05 64 05 C0 01 00 00 04 E9 21. -/
theorem test_frame_bytes (h : Config.crc16 = crcDnp) (h0 : Config.sync0 = 0x05#8) (h1 : Config.sync1 = 0x64#8) :
    frame [] 0xC0#8 0x0001#16 0x0400#16
      = [0x05#8, 0x64#8, 0x05#8, 0xC0#8, 0x01#8, 0x00#8, 0x00#8, 0x04#8, 0xE9#8, 0x21#8] := by
  simp only [frame, preamble, header, checksum, h, h0, h1]
  decide +kernel

/-! ## Witnesses: states and operands that meet the hypotheses of the statements -/

/-- A block that waits for the second of two bytes, with one byte more offered. -/
def Sys2Proof.Machine.loading : State :=
  { State.reset with
    len := 2#32, units := 1#32, phase := .load
    lat := { op := .checksum, legacy := true, ctrl := 0x44#8, dst := 0#16, src := 0#16, len := 2 }
    inbuf := [0x31#8], hostIn := [0x32#8, 0x33#8] }

/-- A block that has one beat of a one-byte FRAGMENT left. -/
def Sys2Proof.Machine.emitting : State :=
  { State.reset with
    len := 1#32, units := 1#32, phase := .emit
    lat := { op := .fragment, legacy := true, ctrl := 0x44#8, dst := 0#16, src := 0#16, len := 1 }
    inbuf := [0xAA#8], outq := [{ data := 0xAA#8, eou := true, eom := true, empty := false }] }

theorem witness_emitting_inv : Sys2Proof.Machine.Inv emitting where
  idle_empty := by decide
  load_short := by decide
  emit_rest := fun _ => ⟨by decide, rfl, ⟨[], by decide⟩⟩
  busy_flags := by decide
  not_done_and_err := by decide
  err_code := by decide
  busy_len := fun _ => ⟨Nat.le_trans (by decide) maxLen_ge, by decide⟩
  busy_units := by decide
  err_units := by decide

theorem witness_loading_inv : Sys2Proof.Machine.Inv loading where
  idle_empty := by decide
  load_short := by decide
  emit_rest := by decide
  busy_flags := by decide
  not_done_and_err := by decide
  err_code := by decide
  busy_len := fun _ => ⟨Nat.le_trans (by decide) maxLen_ge, by decide⟩
  busy_units := by decide
  err_units := by decide

theorem witness_DecodeReadsReservedBitsThenOp :
    (0x10#32).toNat / 16 ≠ 0 ∧ (0x0#32).toNat / 16 = 0 ∧ (0x0#32).toNat % 16 = 0 ∧ (0x1#32).toNat % 16 = 1 ∧
    (0x2#32).toNat % 16 = 2 ∧ (0x3#32).toNat % 16 = 3 ∧ (0x4#32).toNat % 16 = 4 ∧
    (0x5#32).toNat / 16 = 0 ∧ 5 ≤ (0x5#32).toNat % 16 ∧ (0xF#32).toNat / 16 = 0 ∧ 5 ≤ (0xF#32).toNat % 16 := by
  decide
theorem witness_DecodeOfEncode : Instr.buildFrames.wf = true ∧ Instr.checksum.wf = true := by decide
theorem witness_EveryOtherWordIsIllegal :
    State.reset.phase = .idle ∧ decode 0x0#32 = .error .noSuchOp ∧ 0x4#32 = encode .checksum := by decide
theorem witness_RegisterWindowMap : regAt 0x1C = some .units ∧ regAt 0x20 = none := by decide
theorem witness_RegisterWriteEffects :
    regAt 0x04 = some .status ∧ regAt 0x1C = some .units ∧ 0x20 ≤ 0x20 ∧ regAt 0x20 = none := by decide
theorem witness_RegisterReadValues : 0x20 ≤ 0x3C ∧ 0x3C % 4 = 0 ∧ 0x3C ≤ 0x3C := by decide
theorem witness_PortAdmitsAlignedWordsOnly :
    Width.byte ≠ .word ∧ 0x3E % 4 ≠ 0 ∧ 0x3C < 0x40 ∧ 0x40 % 4 = 0 ∧ 0x3C % 4 = 0 ∧ 0x3C ≤ 0x3C := by decide
theorem witness_CommandEvaluationOrder : State.reset.phase = .idle := by decide
theorem witness_RejectionIsPrecise :
    State.reset.phase = .idle ∧ regWrite 0x00 0x11#32 State.reset = .next (reject .illegalCmd State.reset) ∧
    (reject .illegalCmd State.reset).err = true := ⟨rfl, rfl, rfl⟩
theorem witness_FirstApplicableCauseIsReported :
    State.reset.phase = .idle ∧
    regWrite 0x00 0x3#32 { State.reset with dst := 0x10000#32, src := 0x10000#32, len := 300#32 }
      = .next (reject .dstRange { State.reset with dst := 0x10000#32, src := 0x10000#32, len := 300#32 }) :=
  ⟨rfl, rfl⟩
/-- The largest operands every command accepts, whatever MAX_LEN is. -/
theorem witness_acceptance :
    let s : State := { State.reset with dst := 0xFFFF#32, src := 0xFFFF#32, len := 250#32 }
    s.phase = .idle ∧ s.dst.toNat ≤ 0xFFFF ∧ s.src.toNat ≤ 0xFFFF ∧ s.len.toNat ≤ 250 ∧
    s.len.toNat ≤ Config.maxLen :=
  ⟨rfl, by decide, by decide, by decide, maxLen_ge⟩
theorem witness_AcceptanceLatchesOperands :
    let s : State := { State.reset with dst := 0xFFFF#32, src := 0xFFFF#32, len := 250#32 }
    loading.lat.op = .checksum ∧ emitting.lat.op = .fragment ∧ s.phase = .idle ∧ (Instr.buildFrame = .buildFrame ∨ Instr.buildFrame = .buildFrames →
      s.dst.toNat ≤ 0xFFFF ∧ s.src.toNat ≤ 0xFFFF) ∧ (Instr.buildFrame = .buildFrame → s.len.toNat ≤ 250) ∧
    s.len.toNat ≤ Config.maxLen :=
  ⟨rfl, rfl, rfl, fun _ => by decide, fun _ => by decide, maxLen_ge⟩
theorem witness_BuildFramesIsAccepted :
    State.reset.phase = .idle ∧ State.reset.dst.toNat ≤ 0xFFFF ∧ State.reset.src.toNat ≤ 0xFFFF ∧
    State.reset.len.toNat ≤ Config.maxLen := ⟨rfl, by decide, by decide, Nat.zero_le _⟩
theorem witness_FragmentIsAccepted :
    let s : State := { State.reset with dst := 0xFFFFFFFF#32, len := 250#32 }
    s.phase = .idle ∧ s.len.toNat ≤ Config.maxLen := ⟨rfl, maxLen_ge⟩
theorem witness_BuildFrameIsAccepted :
    let s : State := { State.reset with dst := 0xFFFF#32, src := 0xFFFF#32, len := 250#32 }
    s.phase = .idle ∧ s.dst.toNat ≤ 0xFFFF ∧ s.src.toNat ≤ 0xFFFF ∧ s.len.toNat ≤ 250 :=
  ⟨rfl, by decide, by decide, by decide⟩
theorem witness_ChecksumIsAccepted :
    State.reset.phase = .idle ∧ State.reset.len.toNat ≤ Config.maxLen := ⟨rfl, Nat.zero_le _⟩
theorem witness_BusyBlockIgnoresCommands : loading.phase ≠ .idle ∧ emitting.phase ≠ .idle := by decide
theorem witness_CommandsLeaveParametersAndStreams :
    exec .checksum { State.reset with hostIn := [0x31#8] }
      = .next (accept .checksum { State.reset with hostIn := [0x31#8] }) := rfl
theorem witness_EvaluationReadsOnlyParameters :
    let s₂ : State := { State.reset with done := true, units := 7#32, hostIn := [0x31#8] }
    State.reset.phase = .idle ∧ s₂.phase = .idle ∧ SameParams State.reset s₂ ∧
    regWrite 0x00 0x2#32 State.reset = .next (accept .fragment State.reset) ∧
    regWrite 0x00 0x2#32 s₂ = .next (accept .fragment s₂) ∧ (accept .fragment State.reset).err = false ∧
    (accept .fragment State.reset).phase = .emit :=
  ⟨rfl, rfl, ⟨rfl, rfl, rfl, rfl, rfl⟩, rfl, rfl, rfl, rfl⟩
theorem witness_OutputIsComputedAtLastByte :
    loading.phase = .load ∧ loading.hostIn = [0x32#8, 0x33#8] ∧ loading.inbuf.length + 1 = loading.lat.len ∧
    State.reset.phase = .idle ∧ State.reset.len.toNat = 0 ∧
    exec .checksum State.reset = .next (accept .checksum State.reset) ∧
    (accept .checksum State.reset).err = false := ⟨rfl, rfl, rfl, rfl, rfl, rfl, rfl⟩
theorem witness_InputTransferTakesOldestByte :
    loading.phase = .load ∧ loading.hostIn = [0x32#8, 0x33#8] ∧ emitting.phase ≠ .load ∧
    ({ loading with hostIn := [] } : State).hostIn = [] := ⟨rfl, rfl, by decide, rfl⟩
theorem witness_OutputTransferDeliversOldestBeat :
    emitting.phase = .emit ∧ emitting.outq = [{ data := 0xAA#8, eou := true, eom := true, empty := false }] ∧
    loading.phase ≠ .emit ∧ Sys2Proof.Machine.Inv emitting ∧
    offeredBeat emitting = some { data := 0xAA#8, eou := true, eom := true, empty := false } :=
  ⟨rfl, rfl, by decide, witness_emitting_inv, rfl⟩
theorem witness_EarlyBytesWaitForNextCommand :
    let s : State := { State.reset with len := 1#32, hostIn := [0x31#8] }
    State.reset.phase = .idle ∧ emitting.phase = .emit ∧ s.phase = .idle ∧ s.hostIn = [0x31#8] ∧
    exec .checksum s = .next (accept .checksum s) ∧ (accept .checksum s).err = false ∧ 0 < s.len.toNat :=
  ⟨rfl, rfl, rfl, rfl, rfl, rfl, by decide⟩
theorem witness_BeatsOfUnitsByIndex : ([[], [0x01#8, 0x02#8]] : List (List Byte)) ≠ [] := by decide
theorem witness_UnitsCountsTheEouBeats : ([0xAA#8] : List Byte).length = emitting.lat.len := by decide
theorem witness_UnitsAreReadBackFromBeats : ([[], [0x01#8]] : List (List Byte)) ≠ [] := by decide
theorem witness_BeatEncoding :
    ({ data := 0x00#8, eou := true, eom := true, empty := true } : Beat)
      ∈ beats (result { emitting.lat with len := 0 } []) := by decide
theorem witness_SequenceByteFields :
    1 < 65 ∧ 64 < 65 ∧ 0 < 65 ∧ segCount ([] : List Byte).length true = 1 := by decide
theorem witness_SegmentCountsPerMode : 0 < 1 ∧ 250 ≤ 250 ∧ 250 < 251 := by decide
theorem witness_FragmentSlicesInOrder :
    segCount (List.replicate 250 0#8 : List Byte).length true = 1 ∧
    segCount (List.replicate 251 0#8 : List Byte).length true ≠ 1 ∧
    1 < segCount (List.replicate 251 0#8 : List Byte).length true := by
  decide +kernel
theorem witness_SegmentLengths :
    250 < (List.replicate 251 0#8 : List Byte).length ∧
    (fragment (List.replicate 251 0#8) true)[1]? = some [0x81#8, 0x00#8, 0x00#8] := by
  decide +kernel
theorem witness_CorrectedModeLosesNothing :
    (List.replicate 250 0#8 : List Byte).length ≤ 250 ∧ 250 < (List.replicate 251 0#8 : List Byte).length := by
  decide +kernel
theorem witness_LegacyModeLosesExactlyTheTail :
    2 ≤ segCountLegacy (List.replicate 500 0#8 : List Byte).length := by
  decide +kernel
theorem witness_BoundaryFlagsMarkTheEnds :
    250 < (List.replicate 251 0#8 : List Byte).length ∧
    (fragment (List.replicate 251 0#8) false)[1]? = some [0x81#8, 0x00#8, 0x00#8] := by
  decide +kernel
theorem witness_HeaderByteOffsets : 250 ≤ 250 := by decide
/-- For the statements about a frame of a segment of at most 250 bytes and its chunks. -/
theorem witness_frames :
    (List.replicate 250 0#8 : List Byte).length ≤ 250 ∧
    15 < ceilDiv (List.replicate 250 0#8 : List Byte).length 16 ∧
    (chunks [0x01#8])[0]? = some [0x01#8] ∧ ([] : List Byte).length ≤ 250 := by
  decide +kernel
theorem witness_FrameByteLayout :
    (List.replicate 17 0#8 : List Byte).length ≤ 250 ∧
    (chunks (List.replicate 17 0#8))[0]? = some (List.replicate 16 0#8) ∧
    0 + 1 < ceilDiv (List.replicate 17 0#8 : List Byte).length 16 := by decide +kernel
theorem witness_FrameLengthAccounting : (List.replicate 250 0#8 : List Byte).length ≤ 250 := by
  decide +kernel
theorem witness_SegmentIsReadBackFromFrame : (List.replicate 250 0#8 : List Byte).length ≤ 250 := by
  decide +kernel
theorem witness_ChunkOffsetsInFrame :
    (List.replicate 17 0#8 : List Byte).length ≤ 250 ∧ 1 < ceilDiv (List.replicate 17 0#8 : List Byte).length 16 := by
  decide
theorem witness_ChunkSizes : (chunks [0x01#8])[0]? = some [0x01#8] := by decide
theorem witness_ChecksumIsTwoBytesLowFirst : loading.lat.op = .checksum := rfl
theorem witness_BuildFramesFramesEverySegment :
    (buildFrames [] 0x44#8 0#16 0#16 true)[0]? = some (frame [] 0x44#8 0#16 0#16) ∧
    0 + 1 < segCount 251 true := ⟨rfl, by decide⟩
theorem witness_ResetAbandonsTheCommand : ({ loading with turns := [.reset] } : State).turns = [.reset] := rfl
theorem witness_DefaultsStraightAfterReset : (250#32).toNat ≤ Config.maxLen := maxLen_ge
theorem witness_StepRunsTheDecodedCommand :
    let s : State := { State.reset with turns := [.host], prog := [.wr .word 0x00 0x4#32] }
    s.turns = [.host] ∧ s.prog = [.wr .word 0x00 0x4#32] ∧ decode 0x4#32 = .ok .checksum ∧
    decodeTableWord 32 4 = some .checksum := ⟨rfl, rfl, rfl, rfl⟩
theorem witness_StepTakesTheNextTurn :
    ({ loading with turns := [.input] } : State).turns = [.input] ∧
    ({ State.reset with turns := [.host], prog := [.pull] } : State).prog = [.pull] ∧
    ({ State.reset with turns := [.host] } : State).prog = [] ∧ State.reset.turns = [] := ⟨rfl, rfl, rfl, rfl⟩
theorem witness_HostOperations :
    offeredBeat emitting ≠ none ∧ offeredBeat loading = none ∧ 0x04 % 4 = 0 ∧ 0x04 ≤ 0x3C := by decide
theorem witness_EveryStepKeepsTheInvariant :
    Sys2Proof.Machine.Inv loading ∧ step loading = .next loading := ⟨witness_loading_inv, rfl⟩
theorem witness_NoErrorAfterAcceptance :
    Sys2Proof.Machine.Inv emitting ∧ emitting.phase ≠ .idle ∧ step emitting = .next emitting :=
  ⟨witness_emitting_inv, by decide, rfl⟩
theorem witness_OnlyCompletionOrResetEndsACommand :
    let s : State := { emitting with turns := [.host], prog := [.pull] }
    s.phase ≠ .idle ∧ step s = .next (outTransfer { emitting with turns := [], prog := [] }) ∧
    (outTransfer { emitting with turns := [], prog := [] }).phase = .idle := ⟨by decide, rfl, rfl⟩
theorem witness_LatAndUnitsKeptWhileBusy :
    let s : State := { loading with turns := [.input] }
    s.phase ≠ .idle ∧ s.turns.head? ≠ some .reset ∧
    step s = .next (inTransfer { loading with turns := [] }) := ⟨by decide, by decide, rfl⟩
theorem witness_RunningCommandIgnoresTheRest :
    let s₁ : State := { loading with turns := [.input] }
    let s₂ : State := { loading with turns := [.input], len := 9#32, dst := 0x10000#32 }
    s₁.phase ≠ .idle ∧ SameCommand s₁ s₂ ∧ s₂.hostIn = s₁.hostIn ∧ s₂.turns = s₁.turns ∧ s₂.prog = s₁.prog ∧
    s₁.turns.head? ≠ some .reset ∧ step s₁ = .next (inTransfer { loading with turns := [] }) ∧
    step s₂ = .next (inTransfer { loading with turns := [], len := 9#32, dst := 0x10000#32 }) :=
  ⟨by decide, ⟨rfl, rfl, rfl, rfl, rfl, rfl, rfl, rfl⟩, rfl, rfl, rfl, by decide, rfl, rfl⟩
theorem witness_HangsWithoutTheHost :
    let s : State := { loading with hostIn := [], turns := [.input] }
    let e : State := { emitting with turns := [.input] }
    s.phase = .load ∧ s.hostIn = [] ∧ s.turns.head? ≠ some .reset ∧
    step s = .next (inTransfer { loading with hostIn := [], turns := [] }) ∧
    e.phase = .emit ∧ e.turns.head? ≠ some .reset ∧ e.turns.head? ≠ some .host ∧
    step e = .next (inTransfer { emitting with turns := [] }) :=
  ⟨rfl, rfl, by decide, rfl, rfl, by decide, by decide, rfl⟩
theorem witness_AcceptedCommandRunsToCompletion :
    let s : State := { State.reset with
      len := 1#32, hostIn := [0xAA#8]
      prog := [wrReg .cmd (encode .fragment), .pullAll], turns := [.host, .input, .host] }
    s.phase = .idle ∧ s.len.toNat ≤ Config.maxLen ∧ s.len.toNat ≤ s.hostIn.length ∧
    s.prog = wrReg .cmd (encode .fragment) :: .pullAll :: [] ∧
    s.turns = .host :: (List.replicate s.len.toNat .input ++
      (List.replicate (beats (result (latch .fragment s) (s.hostIn.take s.len.toNat))).length .host ++ [])) :=
  ⟨rfl, Nat.le_trans (by decide) maxLen_ge, by decide, rfl, by decide⟩
/-- R60: a byte read is refused; the same read of a word goes on and is recorded. -/
theorem witness_StepStopsOnlyOutsideThePort :
    (HostOp.rd .byte 0x04).wf = false ∧
    step { State.reset with turns := [.host], prog := [.rd .byte 0x04] } = .refused .subWordAccess ∧
    after (step { State.reset with turns := [.host], prog := [.rd .word 0x04] }) State.reads = some [0#32] :=
  ⟨rfl, rfl, rfl⟩
end

section
/-! PROOFS. The reset values (10_state.md R42). -/

namespace Sys2Proof.Machine

/-- An idle block with none of the three STATUS fields set reads 0 in STATUS (10_state.md R26). -/
theorem State.status_eq_zero_of_idle {s : State} (hphase : s.phase = .idle) (herr : s.err = false)
    (hcode : s.errCode = .none) (hdone : s.done = false) : s.status = 0#32 := by
  have hbusy : s.busy = false := by simp [State.busy, hphase]
  rw [State.status, hphase, herr, hcode, hdone, hbusy]
  rfl

/-- Settles O46: STATUS by what its fields hold, every other value as `State.reset` sets it. -/
theorem resetValues : Obligations.ResetValues := by
  have hstatus : State.reset.status = 0#32 := State.status_eq_zero_of_idle rfl rfl rfl rfl
  exact ⟨rfl, rfl, rfl, hstatus, rfl, rfl, rfl, rfl, rfl, rfl, rfl, rfl, rfl⟩

end Sys2Proof.Machine
end

section
/-! PROOFS. What a register write does at every offset (20_memory.md R61, R63). -/

namespace Sys2Proof

/-- Every register of the window lies below 0x20 (20_memory.md R63). -/
theorem Reg.offset_lt_unmapped (r : Reg) : r.offset < 0x20 := by
  cases r <;> decide

end Sys2Proof

namespace Sys2Proof.Machine

/-- The address map ends at 0x20: a register there would have its own offset at or above 0x20. -/
theorem regAt_eq_none_of_le {off : Nat} (h : 0x20 ≤ off) : regAt off = none := by
  refine Option.eq_none_iff_forall_ne_some.2 fun r hr => ?_
  have hoff : off = r.offset := eq_offset_of_regAt hr
  have hlt := r.offset_lt_unmapped
  omega

/-- A write to an offset that holds no register is ignored (20_memory.md R61). -/
theorem regWrite_of_regAt_eq_none {off : Nat} (h : regAt off = none) (v : Word) (s : State) :
    regWrite off v s = .next s := by
  rw [regWrite, h]

/-- STATUS, UNITS and the unmapped offsets ignore a write (20_memory.md R61). -/
theorem regWrite_ignored {off : Nat} (h : off = 0x04 ∨ off = 0x1C ∨ 0x20 ≤ off) (v : Word) (s : State) :
    regWrite off v s = .next s := by
  obtain rfl | rfl | hunmapped := h
  · rfl
  · rfl
  · exact regWrite_of_regAt_eq_none (regAt_eq_none_of_le hunmapped) v s

/-- A write to CMD decodes the word and executes its command, or is illegal (20_memory.md R61). -/
theorem regWrite_cmd (v : Word) (s : State) : regWrite 0x00 v s = writeCmd v s := rfl

/-- Settles O6: CMD evaluates the word, each parameter register stores its bits by the model's own
`write…`, and `regWrite_ignored` covers the other offsets. -/
theorem registerWriteEffects : Obligations.RegisterWriteEffects := by
  intro v s
  refine ⟨?cmd, ?config, ?ctrlCode, ?dst, ?src, ?len, fun off h => regWrite_ignored h v s⟩
  case cmd => exact regWrite_cmd v s
  case config => rfl
  case ctrlCode => rfl
  case dst => rfl
  case src => rfl
  case len => rfl

end Sys2Proof.Machine
end

section
/-! PROOFS. Every CMD word, by its reserved bits and its OP (30_encoding.md R80 to R82). -/

namespace Sys2Proof

/-- The reserved field v[31:4] is v div 16 (30_encoding.md R80). -/
theorem reservedField_toNat (v : Word) : (v.extractLsb' 4 28).toNat = v.toNat / 16 := by
  rw [BitVec.extractLsb'_toNat, Nat.shiftRight_eq_div_pow]
  omega

/-- The field OP = v[3:0] is v mod 16 (30_encoding.md R80). -/
theorem opField_toNat (v : Word) : (v.extractLsb' 0 4).toNat = v.toNat % 16 := by
  rw [BitVec.extractLsb'_toNat, Nat.shiftRight_zero]

theorem decode_of_reservedBits {v : Word} (hres : v.toNat / 16 ≠ 0) :
    decode v = .error .reservedBits := by
  have hfield : v.extractLsb' 4 28 ≠ 0#28 := fun h => hres (by rw [← reservedField_toNat, h]; rfl)
  exact if_pos hfield

theorem opOfCode_eq_none {op : BitVec 4} (h : op.toNat = 0 ∨ 5 ≤ op.toNat) : opOfCode op = none := by
  revert op
  decide

theorem decode_of_noSuchOp {v : Word} (hres : v.toNat / 16 = 0)
    (hop : v.toNat % 16 = 0 ∨ 5 ≤ v.toNat % 16) : decode v = .error .noSuchOp := by
  have hfield : v.extractLsb' 4 28 = 0#28 := BitVec.eq_of_toNat_eq (by rw [reservedField_toNat, hres]; rfl)
  rw [← opField_toNat] at hop
  simp [decode, hfield, opOfCode_eq_none hop]

theorem decode_encode (i : Instr) : decode (encode i) = .ok i := by
  cases i <;> rfl

theorem encode_injective : Function.Injective encode := fun i j h => by
  have hdecode : (.ok i : Except IllegalWord Instr) = .ok j := by
    rw [← decode_encode i, h, decode_encode j]
  exact Except.ok.inj hdecode

/-- With its reserved bits zero, a word is the command's word that has the same OP. -/
theorem eq_encode_of_fields {v : Word} (i : Instr) (hres : v.toNat / 16 = 0)
    (hop : v.toNat % 16 = (encode i).toNat) : v = encode i :=
  BitVec.eq_of_toNat_eq (by omega)

theorem decode_of_fields {v : Word} (i : Instr) (hres : v.toNat / 16 = 0)
    (hop : v.toNat % 16 = (encode i).toNat) : decode v = .ok i := by
  rw [eq_encode_of_fields i hres hop, decode_encode]

/-- A word is a command's own word, or decoding it fails (30_encoding.md R82). -/
theorem eq_encode_or_decode_error (v : Word) : (∃ i, v = encode i) ∨ ∃ e, decode v = .error e := by
  by_cases hres : v.toNat / 16 = 0
  · by_cases hillegal : v.toNat % 16 = 0 ∨ 5 ≤ v.toNat % 16
    · exact .inr ⟨_, decode_of_noSuchOp hres hillegal⟩
    · left
      obtain hop | hop | hop | hop :
        v.toNat % 16 = 1 ∨ v.toNat % 16 = 2 ∨ v.toNat % 16 = 3 ∨ v.toNat % 16 = 4 := by omega
      · exact ⟨_, eq_encode_of_fields .buildFrames hres hop⟩
      · exact ⟨_, eq_encode_of_fields .fragment hres hop⟩
      · exact ⟨_, eq_encode_of_fields .buildFrame hres hop⟩
      · exact ⟨_, eq_encode_of_fields .checksum hres hop⟩
  · exact .inr ⟨_, decode_of_reservedBits hres⟩

theorem ne_encode_of_decode_error {v : Word} {e : IllegalWord} (h : decode v = .error e) (i : Instr) :
    v ≠ encode i := by
  rintro rfl
  simp [decode_encode] at h

/-- Settles O2: a word with its reserved bits zero is decided by OP alone. -/
theorem decodeReadsReservedBitsThenOp : Obligations.DecodeReadsReservedBitsThenOp :=
  fun _ => ⟨decode_of_reservedBits, fun hres =>
    ⟨decode_of_fields .buildFrames hres, decode_of_fields .fragment hres, decode_of_fields .buildFrame hres,
      decode_of_fields .checksum hres, decode_of_noSuchOp hres⟩⟩

end Sys2Proof

namespace Sys2Proof.Machine

theorem writeCmd_of_decode_error {v : Word} {e : IllegalWord} (h : decode v = .error e) (s : State) :
    writeCmd v s = .next (illegalCommand s) := by
  rw [writeCmd, h]

/-- In IDLE an illegal word is rejected with ILLEGAL_CMD (60_exceptions.md R256). -/
theorem illegalCommand_of_idle {s : State} (h : s.phase = .idle) :
    illegalCommand s = reject .illegalCmd s := whenIdle_of_idle h

/-- Settles O4: a command's word is its alone because `encode` is injective; any other word is an error of
`decode`, which a CMD write in IDLE rejects. -/
theorem everyOtherWordIsIllegal : Obligations.EveryOtherWordIsIllegal := by
  refine ⟨rfl, rfl, rfl, rfl, rfl, fun v => ?_⟩
  obtain ⟨i, rfl⟩ | ⟨e, he⟩ := eq_encode_or_decode_error v
  · exact .inl ⟨i, rfl, decode_encode i, fun j hj => (encode_injective hj).symm⟩
  · refine .inr ⟨ne_encode_of_decode_error he, ⟨e, he⟩, fun s hidle => ?_⟩
    rw [regWrite_cmd, writeCmd_of_decode_error he, illegalCommand_of_idle hidle]
    rfl

end Sys2Proof.Machine
end

section
/-! PROOFS. The fields of the sequence byte (30_encoding.md R87). -/

namespace Sys2Proof.Machine

/-- The flags FIRST and LAST leave bits 5:0 alone, so these are the index field. -/
theorem seqByte_index (i n : Nat) : ((seqByte i n).extractLsb' 0 6).toNat = i % 64 := by
  have hfirst : (if i = 0 then firstFlag else 0#8).extractLsb' 0 6 = 0#6 := by split <;> rfl
  have hlast : (if i = n - 1 then lastFlag else 0#8).extractLsb' 0 6 = 0#6 := by split <;> rfl
  rw [seqByte, BitVec.extractLsb'_or, BitVec.extractLsb'_or, hfirst, hlast, BitVec.or_zero, BitVec.or_zero,
    BitVec.extractLsb'_toNat, BitVec.toNat_ofNat, Nat.shiftRight_zero]
  simp only [seqMod]
  omega

/-- The index field does not reach bit 6 or bit 7. -/
theorem seqIndex_getLsbD (i : Nat) {k : Nat} (hk : 6 ≤ k) :
    (BitVec.ofNat 8 (i % seqMod)).getLsbD k = false := by
  have hlt : i % seqMod < 2 ^ k :=
    (Nat.mod_lt i (by decide)).trans_le (Nat.pow_le_pow_right (n := 2) (by decide) hk)
  rw [BitVec.getLsbD_ofNat, Nat.testBit_lt_two_pow hlt, Bool.and_false]

/-- A flag that is set on a condition shows that condition in its own bit and nothing elsewhere. -/
theorem ite_flag_getLsbD (p : Prop) [Decidable p] (flag : Byte) (k : Nat) :
    (if p then flag else 0#8).getLsbD k = (decide p && flag.getLsbD k) := by
  by_cases h : p <;> simp [h]

theorem seqByte_first (i n : Nat) : (seqByte i n).getLsbD 6 = decide (i = 0) := by
  have hfirst : firstFlag.getLsbD 6 = true := rfl
  have hlast : lastFlag.getLsbD 6 = false := rfl
  simp only [seqByte, BitVec.getLsbD_or, seqIndex_getLsbD i (by decide : 6 ≤ 6), ite_flag_getLsbD, hfirst,
    hlast, Bool.and_true, Bool.and_false, Bool.false_or, Bool.or_false]

theorem seqByte_last (i n : Nat) : (seqByte i n).getLsbD 7 = decide (i = n - 1) := by
  have hfirst : firstFlag.getLsbD 7 = false := rfl
  have hlast : lastFlag.getLsbD 7 = true := rfl
  simp only [seqByte, BitVec.getLsbD_or, seqIndex_getLsbD i (by decide : 6 ≤ 7), ite_flag_getLsbD, hfirst,
    hlast, Bool.and_true, Bool.and_false, Bool.false_or]

theorem fragment_of_segCount_eq_one {data : List Byte} {legacy : Bool}
    (h : segCount data.length legacy = 1) : fragment data legacy = [data] := by
  have hshort := (one_lt_segCount_iff data.length legacy).not.1 (by omega)
  exact fragment_single (by omega)

/-- Settles O29: the index field and the two flags occupy disjoint bits. -/
theorem sequenceByteFields : Obligations.SequenceByteFields :=
  ⟨fun i n _ _ => ⟨seqByte_index i n, seqByte_first i n, seqByte_last i n⟩,
    fun _ _ h => fragment_of_segCount_eq_one h⟩

end Sys2Proof.Machine
end

section
/-! PROOFS. The bytes of a header, a checksum and a frame (30_encoding.md R89, R90, R93). -/

namespace Sys2Proof.Machine

/-! ### Two bytes, the low one first -/

theorem le16_low_toNat (v : Half) : ((le16 v).getD 0 0#8).toNat = v.toNat % 256 := by
  change (v.extractLsb' 0 8).toNat = v.toNat % 256
  rw [BitVec.extractLsb'_toNat, Nat.shiftRight_zero]

theorem le16_high_toNat (v : Half) : ((le16 v).getD 1 0#8).toNat = v.toNat / 256 := by
  change (v.extractLsb' 8 8).toNat = v.toNat / 256
  rw [BitVec.extractLsb'_toNat, Nat.shiftRight_eq_div_pow]
  omega

/-- Settles O43: `checksum` is `le16` of crc16 of the whole input. -/
theorem checksumIsTwoBytesLowFirst : Obligations.ChecksumIsTwoBytesLowFirst := by
  refine fun data lat hop => ⟨?unit, checksum_length data, le16_low_toNat _, le16_high_toNat _⟩
  case unit => rw [result, hop]

/-! ### The header -/

/-- Up to 250 bytes the LENGTH byte holds s + 5 without wrapping (42_frame_builder.md R181). -/
theorem lengthByte_toNat {s : Nat} (hs : s ≤ 250) : (BitVec.ofNat 8 (s + lenBias)).toNat = s + 5 :=
  Nat.mod_eq_of_lt (show s + 5 < 2 ^ 8 by omega)

/-- Settles O37: the four single bytes as `header` lists them, then the addresses by `le16`. -/
theorem headerByteOffsets : Obligations.HeaderByteOffsets := by
  intro s c d r hs
  exact ⟨header_length s c d r, rfl, rfl, lengthByte_toNat hs, rfl, le16_low_toNat d, le16_high_toNat d,
    le16_low_toNat r, le16_high_toNat r⟩

/-! ### Chunks -/

theorem chunkAt_eq_take_drop (seg : List Byte) (k : Nat) : chunkAt seg k = (seg.drop (16 * k)).take 16 := by
  rw [chunkAt, slice, List.drop_take, Nat.add_sub_cancel_left]

theorem length_chunkAt (seg : List Byte) (k : Nat) :
    (chunkAt seg k).length = min 16 (seg.length - 16 * k) := by
  rw [chunkAt_eq_take_drop, List.length_take, List.length_drop]

@[simp] theorem length_chunks (seg : List Byte) : (chunks seg).length = ceilDiv seg.length 16 := by
  rw [chunks, List.length_map, List.length_range]

theorem eq_chunkAt_of_chunks_getElem? {seg ch : List Byte} {k : Nat} (h : (chunks seg)[k]? = some ch) :
    ch = chunkAt seg k := by
  obtain ⟨hk, rfl⟩ := List.getElem?_eq_some_iff.1 h
  simp only [chunks, List.getElem_map, List.getElem_range]

/-- The chunks, put together, are the segment (30_encoding.md R90). -/
theorem flatten_chunks (seg : List Byte) : (chunks seg).flatten = seg := by
  have hslice : chunkAt seg = fun k => slice seg (k * 16) ((k + 1) * 16) := funext fun k => by
    rw [chunkAt, Nat.mul_comm, Nat.succ_mul]
  have hcover : seg.length ≤ ceilDiv seg.length 16 * 16 := by
    have := le_mul_ceilDiv seg.length (b := 16) (by decide)
    omega
  calc (chunks seg).flatten
      = (List.range (ceilDiv seg.length 16)).flatMap fun k => slice seg (k * 16) ((k + 1) * 16) := by
        rw [chunks, hslice, List.flatMap_def]
    _ = seg.take (ceilDiv seg.length 16 * 16) := flatMap_slices seg 16 _
    _ = seg := List.take_of_length_le hcover

/-- Every chunk but the last is full. -/
theorem length_chunk_of_not_last {seg ch : List Byte} {k : Nat} (h : (chunks seg)[k]? = some ch)
    (hk : k + 1 < ceilDiv seg.length 16) : ch.length = 16 := by
  have hnext : 16 * (k + 1) < seg.length := mul_lt_of_lt_ceilDiv (by decide) hk
  rw [eq_chunkAt_of_chunks_getElem? h, length_chunkAt]
  omega

/-! ### The frame -/

theorem frame_take_header (seg : List Byte) (c : Byte) (d r : Half) :
    (frame seg c d r).take 8 = header seg.length c d r := by
  rw [frame, preamble, List.append_assoc]
  exact List.take_left' (header_length _ c d r)

theorem frame_drop_preamble (seg : List Byte) (c : Byte) (d r : Half) :
    (frame seg c d r).drop 10 = body seg :=
  List.drop_left' (preamble_length _ c d r)

/-- The body, chunk by chunk, each followed by its own checksum (42_frame_builder.md R184). -/
theorem body_eq_flatMap_range (seg : List Byte) :
    body seg = (List.range (ceilDiv seg.length 16)).flatMap fun k =>
      (seg.drop (16 * k)).take 16 ++ le16 (Config.crc16 ((seg.drop (16 * k)).take 16)) := by
  simp only [body, chunks, List.flatMap_map, chunkAt_eq_take_drop, checksum]

/-- Settles O38: the frame is the preamble and the body, and the chunks of the body are consecutive slices
that cover the segment. -/
theorem frameByteLayout : Obligations.FrameByteLayout := by
  intro seg c d r _
  refine ⟨frame_take_header seg c d r, le16_low_toNat _, le16_high_toNat _, ?body, length_chunks seg,
    flatten_chunks seg, fun _ _ => length_chunk_of_not_last, ?empty⟩
  case body => rw [frame_drop_preamble, body_eq_flatMap_range]
  case empty => rintro rfl; rfl

end Sys2Proof.Machine
end

section
/-! PROOFS. What a CMD write does in IDLE, and that it does nothing outside IDLE
(40_command_interface.md R121 to R124, R129). -/

namespace Sys2Proof.Machine

/-! ### A CMD write by its word and by the phase -/

theorem exec_of_idle {s : State} (hidle : s.phase = .idle) (i : Instr) :
    exec i s = .next (evaluate i (checksOf i s) s) := by
  rw [exec_eq, whenIdle_of_idle hidle]

theorem exec_of_busy {s : State} (hbusy : s.phase ≠ .idle) (i : Instr) : exec i s = .next s := by
  rw [exec_eq, whenIdle_of_busy hbusy]

theorem writeCmd_of_decode_ok {v : Word} {i : Instr} (h : decode v = .ok i) (s : State) :
    writeCmd v s = exec i s := by
  rw [writeCmd, h]

theorem regWrite_cmd_of_command {v : Word} {i : Instr} {s : State} (hidle : s.phase = .idle)
    (h : decode v = .ok i) : regWrite 0x00 v s = .next (evaluate i (checksOf i s) s) := by
  rw [regWrite_cmd, writeCmd_of_decode_ok h, exec_of_idle hidle]

theorem regWrite_cmd_of_illegal {v : Word} {e : IllegalWord} {s : State} (hidle : s.phase = .idle)
    (h : decode v = .error e) : regWrite 0x00 v s = .next (reject .illegalCmd s) := by
  rw [regWrite_cmd, writeCmd_of_decode_error h, illegalCommand_of_idle hidle]

/-- Settles O18: neither a command nor an illegal word acts on a busy block. -/
theorem busyBlockIgnoresCommands : Obligations.BusyBlockIgnoresCommands := by
  intro v s hbusy
  rw [regWrite_cmd]
  cases h : decode v with
  | ok i => rw [writeCmd_of_decode_ok h, exec_of_busy hbusy]
  | error e => rw [writeCmd_of_decode_error h, illegalCommand, whenIdle_of_busy hbusy]

/-! ### The tests in their order -/

theorem evaluate_nil (i : Instr) (s : State) : evaluate i [] s = accept i s := rfl

theorem evaluate_cons (i : Instr) (b : Bool) (c : ErrCode) (cs : List (Bool × ErrCode)) (s : State) :
    evaluate i ((b, c) :: cs) s = if b = true then reject c s else evaluate i cs s := by
  cases b <;> rfl

/-- The tests of a command as R122 lists them for all four commands: a test that a command does not make
is one whose condition on the command fails. -/
theorem evaluate_checksOf (i : Instr) (s : State) :
    evaluate i (checksOf i s) s =
      if (i = .buildFrame ∨ i = .buildFrames) ∧ 0xFFFF < s.dst.toNat then reject .dstRange s
      else if (i = .buildFrame ∨ i = .buildFrames) ∧ 0xFFFF < s.src.toNat then reject .srcRange s
      else if i = .buildFrame ∧ 250 < s.len.toNat then reject .lenRange s
      else if Config.maxLen < s.len.toNat then reject .capacity s
      else accept i s := by
  cases i <;> simp [checksOf, evaluate_cons, evaluate_nil]

/-- Settles O10: an illegal word is rejected before any test; a command makes its tests in R122's order. -/
theorem commandEvaluationOrder : Obligations.CommandEvaluationOrder := by
  intro v s hidle
  cases h : decode v with
  | error e => exact regWrite_cmd_of_illegal hidle h
  | ok i => rw [regWrite_cmd_of_command hidle h, evaluate_checksOf]

/-- Settles O11: of what a CMD write in IDLE can do, only a rejection leaves ERR set, and no test has the
code NONE. -/
theorem rejectionIsPrecise : Obligations.RejectionIsPrecise := by
  refine ⟨fun _ _ => rfl, fun v s t hidle hwrite herr => ?_⟩
  suffices h : ∃ c, c ≠ .none ∧ t = reject c s by
    obtain ⟨c, hne, ht⟩ := h
    exact ⟨c, hne, ht, ht⟩
  cases h : decode v with
  | error e =>
    rw [regWrite_cmd_of_illegal hidle h] at hwrite
    exact ⟨.illegalCmd, by decide, (Host.Outcome.next.inj hwrite).symm⟩
  | ok i =>
    rw [regWrite_cmd_of_command hidle h] at hwrite
    obtain rfl := Host.Outcome.next.inj hwrite
    obtain ⟨c, hc, hreject⟩ | ⟨-, haccept⟩ := evaluate_cases i (checksOf i s) s
    · exact ⟨c, checksOf_ne_none hc, hreject⟩
    · obtain ⟨-, hclear, -⟩ := accept_fields i s
      rw [haccept, hclear] at herr
      cases herr

/-! ### An acceptance -/

/-- With its operands in range a command passes every test (converse of `checksOf_passed`). -/
theorem firstError_checksOf_eq_none {i : Instr} {s : State}
    (haddr : i = .buildFrame ∨ i = .buildFrames → s.dst.toNat ≤ 0xFFFF ∧ s.src.toNat ≤ 0xFFFF)
    (hseg : i = .buildFrame → s.len.toNat ≤ 250) (hcap : s.len.toNat ≤ Config.maxLen) :
    firstError (checksOf i s) = none := by
  have hcapacity : lenOverCapacity s = false := by simpa [← Bool.not_eq_true] using hcap
  have hdst (h : s.dst.toNat ≤ 0xFFFF) : dstOutOfRange s = false := by simpa [← Bool.not_eq_true] using h
  have hsrc (h : s.src.toNat ≤ 0xFFFF) : srcOutOfRange s = false := by simpa [← Bool.not_eq_true] using h
  have hlen (h : s.len.toNat ≤ 250) : lenOverSegment s = false := by simpa [← Bool.not_eq_true] using h
  cases i with
  | buildFrames =>
    obtain ⟨hd, hs⟩ := haddr (.inr rfl)
    simp [checksOf, firstError, hdst hd, hsrc hs, hcapacity]
  | fragment => simp [checksOf, firstError, hcapacity]
  | buildFrame =>
    obtain ⟨hd, hs⟩ := haddr (.inl rfl)
    simp [checksOf, firstError, hdst hd, hsrc hs, hlen (hseg rfl), hcapacity]
  | checksum => simp [checksOf, firstError, hcapacity]

theorem exec_eq_accept {i : Instr} {s : State} (hidle : s.phase = .idle)
    (hpass : firstError (checksOf i s) = none) : exec i s = .next (accept i s) := by
  rw [exec_of_idle hidle, evaluate, hpass]

/-- A command that leaves ERR clear in IDLE was accepted. -/
theorem eq_accept_of_err_eq_false {i : Instr} {s t : State} (hidle : s.phase = .idle)
    (h : exec i s = .next t) (herr : t.err = false) : t = accept i s := by
  obtain ⟨hbusy, -⟩ | ⟨-, c, -, -, rfl⟩ | ⟨-, -, ht⟩ := exec_cases h
  · exact absurd hidle hbusy
  · cases herr
  · exact ht

/-- FRAGMENT and CHECKSUM read neither the control code nor the addresses (40_command_interface.md R124). -/
theorem result_ignores_addressing {lat : Latched} (hop : lat.op = .fragment ∨ lat.op = .checksum)
    (c : Byte) (d r : Half) (data : List Byte) :
    result { lat with ctrl := c, dst := d, src := r } data = result lat data := by
  obtain h | h := hop <;> simp only [result, h]

/-- Settles O13: operands in range pass every test, and `accept` latches them. -/
theorem acceptanceLatchesOperands : Obligations.AcceptanceLatchesOperands := by
  refine ⟨fun _ c d r data hop => result_ignores_addressing hop c d r data, ?_⟩
  intro i s hidle haddr hseg hcap t
  have hlatched : latchCommand i s = t := rfl
  rw [exec_eq_accept hidle (firstError_checksOf_eq_none haddr hseg hcap), accept, hlatched]
  rfl

theorem accept_phase (i : Instr) (s : State) :
    (accept i s).phase = if s.len.toNat = 0 then .emit else .load := by
  unfold accept
  split <;> rfl

/-- With LEN = 0 the output is that of the empty input (40_command_interface.md R125). -/
theorem accept_outq {i : Instr} {s : State} (h : s.len.toNat = 0) :
    (accept i s).outq = beats (result (latch i s) []) := by
  rw [accept_of_len_zero h]
  rfl

/-! ### Two states with the same parameters -/

theorem checksOf_congr {s t : State} (h : SameParams s t) (i : Instr) : checksOf i t = checksOf i s := by
  cases i <;> simp only [checksOf, dstOutOfRange, srcOutOfRange, lenOverSegment, lenOverCapacity,
    h.dst, h.src, h.len]

theorem latch_congr {s t : State} (h : SameParams s t) (i : Instr) : latch i t = latch i s := by
  simp only [latch, h.legacySeg, h.ctrlCode, h.dst, h.src, h.len]

/-- STATUS is a function of the phase and of the three STATUS fields (10_state.md R26). -/
theorem State.status_congr {s t : State} (hphase : t.phase = s.phase) (herr : t.err = s.err)
    (hcode : t.errCode = s.errCode) (hdone : t.done = s.done) : t.status = s.status := by
  simp only [State.status, State.busy, hphase, herr, hcode, hdone]

theorem reject_report_congr {s t : State} (h : t.phase = s.phase) (c : ErrCode) :
    (reject c t).status = (reject c s).status ∧ (reject c t).units = (reject c s).units ∧
    (reject c t).phase = (reject c s).phase :=
  ⟨State.status_congr h rfl rfl rfl, rfl, h⟩

theorem accept_phase_congr {s t : State} (h : SameParams s t) (i : Instr) :
    (accept i t).phase = (accept i s).phase := by
  rw [accept_phase, accept_phase, h.len]

theorem accept_report_congr {s t : State} (h : SameParams s t) (i : Instr) :
    (accept i t).status = (accept i s).status ∧ (accept i t).units = (accept i s).units ∧
    (accept i t).phase = (accept i s).phase := by
  have hphase := accept_phase_congr h i
  obtain ⟨-, herr, hcode, hdone, hunits, -⟩ := accept_fields i s
  obtain ⟨-, herr', hcode', hdone', hunits', -⟩ := accept_fields i t
  refine ⟨State.status_congr hphase ?_ ?_ ?_, ?_, hphase⟩
  · rw [herr', herr]
  · rw [hcode', hcode]
  · rw [hdone', hdone]
  · rw [hunits', hunits, h.len, h.legacySeg]

theorem accept_command_congr {s t : State} (h : SameParams s t) (i : Instr) :
    (accept i t).lat = (accept i s).lat ∧ (accept i t).inbuf = (accept i s).inbuf ∧
    ((accept i s).phase = .emit → (accept i t).outq = (accept i s).outq) := by
  obtain ⟨hlat, -, -, -, -, hinbuf, -⟩ := accept_fields i s
  obtain ⟨hlat', -, -, -, -, hinbuf', -⟩ := accept_fields i t
  refine ⟨by rw [hlat', hlat, latch_congr h], by rw [hinbuf', hinbuf], fun hemit => ?_⟩
  have hzero : s.len.toNat = 0 := by simpa [accept_phase] using hemit
  rw [accept_outq hzero, accept_outq (by rw [h.len, hzero]), latch_congr h]

/-- Settles O20: the two states make the same tests with the same answers, so both reject with one code or
both accept, and neither writes a value that depends on more than the parameters. -/
theorem evaluationReadsOnlyParameters : Obligations.EvaluationReadsOnlyParameters := by
  intro v s₁ s₂ t₁ t₂ hidle₁ hidle₂ hparams hwrite₁ hwrite₂
  have hphase : s₂.phase = s₁.phase := by rw [hidle₁, hidle₂]
  suffices h : (∃ c, t₁ = reject c s₁ ∧ t₂ = reject c s₂) ∨ ∃ i, t₁ = accept i s₁ ∧ t₂ = accept i s₂ by
    obtain ⟨c, rfl, rfl⟩ | ⟨i, rfl, rfl⟩ := h
    · obtain ⟨hstatus, hunits, hph⟩ := reject_report_congr hphase c
      exact ⟨hstatus, hunits, hph, fun herr => by cases herr⟩
    · obtain ⟨hstatus, hunits, hph⟩ := accept_report_congr hparams i
      exact ⟨hstatus, hunits, hph, fun _ => accept_command_congr hparams i⟩
  cases h : decode v with
  | error e =>
    rw [regWrite_cmd_of_illegal hidle₁ h] at hwrite₁
    rw [regWrite_cmd_of_illegal hidle₂ h] at hwrite₂
    exact .inl ⟨_, (Host.Outcome.next.inj hwrite₁).symm, (Host.Outcome.next.inj hwrite₂).symm⟩
  | ok i =>
    rw [regWrite_cmd_of_command hidle₁ h] at hwrite₁
    rw [regWrite_cmd_of_command hidle₂ h, checksOf_congr hparams] at hwrite₂
    obtain rfl := Host.Outcome.next.inj hwrite₁
    obtain rfl := Host.Outcome.next.inj hwrite₂
    cases hfirst : firstError (checksOf i s₁) with
    | some c => exact .inl ⟨c, by rw [evaluate, hfirst], by rw [evaluate, hfirst]⟩
    | none => exact .inr ⟨i, by rw [evaluate, hfirst], by rw [evaluate, hfirst]⟩

end Sys2Proof.Machine
end

section
/-! PROOFS. The IN transfer: the last byte of a command and the bytes that wait for one
(40_command_interface.md R125, R131). -/

namespace Sys2Proof.Machine

theorem inTransfer_of_not_load {s : State} (h : s.phase ≠ .load) : inTransfer s = s := by
  obtain ⟨-, hsame⟩ | ⟨b, rest, hload, -⟩ := inTransfer_cases s
  · exact hsame
  · exact absurd hload h

theorem inTransfer_of_load {s : State} {b : Byte} {rest : List Byte} (hload : s.phase = .load)
    (hin : s.hostIn = b :: rest) :
    inTransfer s = if s.inbuf.length + 1 = s.lat.len then finishLoad (takeByte b rest s)
      else takeByte b rest s := by
  simp only [inTransfer, hload, hin]

/-- Computing the output or not, an IN transfer takes exactly the oldest offered byte. -/
theorem inTransfer_takes {s : State} {b : Byte} {rest : List Byte} (hload : s.phase = .load)
    (hin : s.hostIn = b :: rest) :
    (inTransfer s).inbuf = s.inbuf ++ [b] ∧ (inTransfer s).hostIn = rest := by
  rw [inTransfer_of_load hload hin]
  split <;> exact ⟨rfl, rfl⟩

/-- Settles O21: the last IN transfer and an acceptance with LEN = 0 both end in `finishLoad`. -/
theorem outputIsComputedAtLastByte : Obligations.OutputIsComputedAtLastByte := by
  refine ⟨?last, ?empty, fun lat data => ⟨result_ne_nil lat data, output_ne_nil lat data⟩⟩
  case last =>
    intro s b rest hload hin hlen
    rw [inTransfer_of_load hload hin, if_pos hlen]
    rfl
  case empty =>
    intro i s t hidle hzero hexec herr
    obtain rfl := eq_accept_of_err_eq_false hidle hexec herr
    obtain ⟨hlat, -, -, -, -, hinbuf, -⟩ := accept_fields i s
    exact ⟨by rw [accept_phase, if_pos hzero], hinbuf, by rw [hlat, accept_outq hzero]⟩

/-- Settles O24: an acceptance with LEN > 0 goes to LOAD with an empty inbuf and leaves hostIn as it is, so
the next IN transfer takes the oldest byte that waited. -/
theorem earlyBytesWaitForNextCommand : Obligations.EarlyBytesWaitForNextCommand := by
  refine ⟨fun s h => inTransfer_of_not_load ?_, fun _ _ => rfl, ?_⟩
  · obtain h | h := h <;> simp [h]
  · intro i s t b rest hidle hin hexec herr hpos
    obtain rfl := eq_accept_of_err_eq_false hidle hexec herr
    obtain ⟨-, -, -, -, -, hinbuf, -, -, -, -, -, -, hhostIn, -⟩ := accept_fields i s
    have hload : (accept i s).phase = .load := by rw [accept_phase, if_neg hpos.ne']
    have htake := inTransfer_takes hload (hhostIn.trans hin)
    rwa [hinbuf, List.nil_append] at htake

end Sys2Proof.Machine
end

section
/-! PROOFS. The segment counts and the segments of the fragmenter (41_fragmenter.md R152, R153, R155). -/

namespace Sys2Proof.Machine

/-! ### The segment counts -/

/-- One part fewer than `ceilDiv` does not hold everything (00_scope.md R16). -/
theorem mul_pred_ceilDiv_lt {a b : Nat} (hb : 0 < b) (ha : 0 < a) : b * (ceilDiv a b - 1) < a :=
  mul_lt_of_lt_ceilDiv hb (Nat.pred_lt (ceilDiv_pos hb ha).ne')

/-- The clamp of the legacy count acts on the empty input only (41_fragmenter.md R152). -/
theorem segCountLegacy_of_pos {L : Nat} (hL : 0 < L) : segCountLegacy L = ceilDiv L 250 :=
  Nat.max_eq_right (ceilDiv_pos (by decide) hL)

theorem segCountCorrected_of_le {L : Nat} (hL : L ≤ 250) : segCountCorrected L = 1 := if_pos hL

theorem segCountCorrected_of_lt {L : Nat} (hL : 250 < L) : segCountCorrected L = ceilDiv L 249 :=
  if_neg (Nat.not_le_of_lt hL)

/-- Settles O30: where a count is `ceilDiv`, that many segments hold the input and one fewer does not. -/
theorem segmentCountsPerMode : Obligations.SegmentCountsPerMode := by
  refine ⟨fun L => ⟨rfl, rfl⟩, rfl, rfl, ?legacy, fun L hL => segCountCorrected_of_le hL, ?corrected⟩
  case legacy =>
    intro L hL
    rw [segCountLegacy_of_pos hL]
    exact ⟨mul_pred_ceilDiv_lt (by decide) hL, le_mul_ceilDiv L (by decide)⟩
  case corrected =>
    intro L hL
    rw [segCountCorrected_of_lt hL]
    exact ⟨mul_pred_ceilDiv_lt (by decide) (by omega), le_mul_ceilDiv L (by decide)⟩

/-! ### The segments -/

theorem segSlice_eq_take_drop (data : List Byte) (i : Nat) :
    segSlice data i = (data.drop (249 * i)).take 249 := by
  rw [segSlice, slice, List.drop_take, ← Nat.sub_mul, Nat.add_sub_cancel_left, Nat.one_mul, Nat.mul_comm i]

/-- Segment i of a message of several (41_fragmenter.md R155). -/
theorem fragment_getElem?_of_several {data : List Byte} {legacy : Bool} (hL : 250 < data.length) {i : Nat}
    (hi : i < segCount data.length legacy) : (fragment data legacy)[i]? =
      some (seqByte i (segCount data.length legacy) :: (data.drop (249 * i)).take 249) := by
  rw [fragment_several hL, List.getElem?_map, List.getElem?_range hi, Option.map_some, segSlice_eq_take_drop]

/-- Settles O31: a count other than 1 means more than 250 bytes, and then the segments are listed by index. -/
theorem fragmentSlicesInOrder : Obligations.FragmentSlicesInOrder := by
  refine fun data legacy => ⟨fragment_of_segCount_eq_one, fun hseveral => ?_⟩
  have hpos := segCount_pos data.length legacy
  have hlong : 250 < data.length := (one_lt_segCount_iff data.length legacy).1 (by omega)
  exact ⟨length_fragment data legacy, fun i hi => fragment_getElem?_of_several hlong hi⟩

end Sys2Proof.Machine
end

section
/-! PROOFS. The error code a CMD write in IDLE reports (60_exceptions.md R257). -/

namespace Sys2Proof.Machine

theorem accept_errCode (i : Instr) (s : State) : (accept i s).errCode = .none := by
  obtain ⟨-, -, hcode, -⟩ := accept_fields i s
  exact hcode

/-- A command reports the code of the first test it fails, and NONE when it passes them all. -/
theorem evaluate_checksOf_errCode (i : Instr) (s : State) :
    (evaluate i (checksOf i s) s).errCode =
      if (i = .buildFrame ∨ i = .buildFrames) ∧ 0xFFFF < s.dst.toNat then .dstRange
      else if (i = .buildFrame ∨ i = .buildFrames) ∧ 0xFFFF < s.src.toNat then .srcRange
      else if i = .buildFrame ∧ 250 < s.len.toNat then .lenRange
      else if Config.maxLen < s.len.toNat then .capacity
      else .none := by
  simp only [evaluate_checksOf, apply_ite State.errCode, reject_errCode, accept_errCode]

/-- A code chosen down the order of the causes is each of its values exactly when that value's cause is the
first that applies. -/
theorem errCode_iff_firstCause {dstBad srcBad lenBad capBad : Prop} [Decidable dstBad] [Decidable srcBad]
    [Decidable lenBad] [Decidable capBad] {c : ErrCode}
    (hc : c = if dstBad then .dstRange else if srcBad then .srcRange else if lenBad then .lenRange
      else if capBad then .capacity else .none) :
    c ≠ .illegalCmd ∧
    (c = .dstRange ↔ dstBad) ∧
    (c = .srcRange ↔ ¬dstBad ∧ srcBad) ∧
    (c = .lenRange ↔ ¬dstBad ∧ ¬srcBad ∧ lenBad) ∧
    (c = .capacity ↔ ¬dstBad ∧ ¬srcBad ∧ ¬lenBad ∧ capBad) ∧
    (c = .none ↔ ¬dstBad ∧ ¬srcBad ∧ ¬lenBad ∧ ¬capBad) := by
  subst hc
  split_ifs with hdst hsrc hlen hcap
  · simp [hdst]
  · simp [hdst, hsrc]
  · simp [hdst, hsrc, hlen]
  · simp [hdst, hsrc, hlen, hcap]
  · simp [hdst, hsrc, hlen, hcap]

/-- Settles O12: an illegal word reports ILLEGAL_CMD whatever the operands hold; a command never does, and its
code is chosen down the order of its tests. -/
theorem firstApplicableCauseIsReported : Obligations.FirstApplicableCauseIsReported := by
  intro v s t hidle hwrite
  cases h : decode v with
  | error e =>
    rw [regWrite_cmd_of_illegal hidle h] at hwrite
    obtain rfl := Host.Outcome.next.inj hwrite
    simp
  | ok i =>
    rw [regWrite_cmd_of_command hidle h] at hwrite
    obtain rfl := Host.Outcome.next.inj hwrite
    have hfirst := errCode_iff_firstCause (evaluate_checksOf_errCode i s)
    simpa only [Except.ok.injEq, reduceCtorEq, exists_false, iff_false, not_false_eq_true, true_and] using hfirst

end Sys2Proof.Machine
end

section
/-! PROOFS. Reset, and the two ways out of LOAD and EMIT (70_reset_and_hazards.md R280 to R282). -/

namespace Sys2Proof.Machine

/-- Settles O47: the step is `blockReset`, whose fields are the reset values and the host's own. -/
theorem resetAbandonsTheCommand : Obligations.ResetAbandonsTheCommand := by
  intro s ts hreset
  exact ⟨blockReset (popTurn ts s), step_of_reset hreset, by simp⟩

/-- The OUT transfer of a command's last beat takes the block from `s` to `t`
(40_command_interface.md R127). -/
def CompletesCommand (s t : State) : Prop :=
  s.phase = .emit ∧ ∃ b, s.outq = [b] ∧ t.hostOut = s.hostOut ++ [b] ∧ t.done = true

/-- An IN transfer ends in LOAD or EMIT, if it does anything. -/
theorem inTransfer_keeps_busy {s : State} (hbusy : s.phase ≠ .idle) : (inTransfer s).phase ≠ .idle := by
  obtain ⟨-, hsame⟩ | ⟨b, rest, hload, -, ⟨-, hlast⟩ | ⟨-, hmore⟩⟩ := inTransfer_cases s
  · rwa [hsame]
  · simp [hlast]
  · simp [hmore, hload]

/-- Of the OUT transfers only that of the last beat leaves EMIT. -/
theorem outTransfer_completes_of_idle {s : State} (hbusy : s.phase ≠ .idle)
    (hidle : (outTransfer s).phase = .idle) : CompletesCommand s (outTransfer s) := by
  obtain ⟨-, hsame⟩ | ⟨b, hemit, hq, hlast⟩ | ⟨b, b', rest, hemit, -, hmore⟩ := outTransfer_cases s
  · exact absurd (hsame ▸ hidle) hbusy
  · exact ⟨hemit, b, hq, by simp [hlast], by simp [hlast]⟩
  · simp [hmore, hemit] at hidle

/-- Of the host's operations only one that takes the last beat ends a command: a command word does nothing
to a busy block, and no other write of a register touches the phase. -/
theorem hostOp_completes_of_idle {op : HostOp} {s t : State} (hbusy : s.phase ≠ .idle)
    (h : hostOp op s = .next t) (hidle : t.phase = .idle) : CompletesCommand s t := by
  obtain ⟨hblock, -⟩ | ⟨v, i, -, -, hexec⟩ | ⟨v, e, -, -, rfl⟩ | ⟨w, off, v, -, hcommand, -⟩ |
    ⟨b, t', -, -, rfl, rfl | rfl⟩ := hostOp_cases h
  · exact absurd (hblock.command.phase ▸ hidle) hbusy
  · rw [exec_of_busy hbusy] at hexec
    exact absurd (Host.Outcome.next.inj hexec ▸ hidle) hbusy
  · rw [illegalCommand, whenIdle_of_busy hbusy] at hidle
    exact absurd hidle hbusy
  · exact absurd (hcommand.phase ▸ hidle) hbusy
  · exact outTransfer_completes_of_idle hbusy hidle
  · exact outTransfer_completes_of_idle hbusy hidle

/-- Settles O55: of the five kinds of step, only reset and an operation of the host can take a busy block to
IDLE, and the operation then completes the command. -/
theorem onlyCompletionOrResetEndsACommand : Obligations.OnlyCompletionOrResetEndsACommand := by
  intro s t hbusy hstep hidle
  obtain ⟨-, rfl⟩ | ⟨ts, -, rfl⟩ | ⟨ts, hreset, -⟩ | ⟨ts, -, -, rfl⟩ | ⟨ts, op, rest, -, -, hop⟩ :=
    step_cases hstep
  · exact absurd hidle hbusy
  · exact absurd hidle (inTransfer_keeps_busy (s := popTurn ts s) hbusy)
  · exact .inl (by rw [hreset, List.head?_cons])
  · exact absurd hidle hbusy
  · exact .inr (hostOp_completes_of_idle (s := popOp rest (popTurn ts s)) hbusy hop hidle)

end Sys2Proof.Machine
end

section
/-! PROOFS. The lengths and the flags of the segments, and what the two modes keep of the data
(41_fragmenter.md R157 to R163). -/

namespace Sys2Proof.Machine

/-! ### The segments of a message of several -/

/-- Inversion of `fragment_getElem?_of_several`. -/
theorem eq_segment_of_fragment_getElem? {data seg : List Byte} {legacy : Bool} {i : Nat}
    (hL : 250 < data.length) (h : (fragment data legacy)[i]? = some seg) :
    i < segCount data.length legacy ∧
      seg = seqByte i (segCount data.length legacy) :: (data.drop (249 * i)).take 249 := by
  have hi : i < segCount data.length legacy := by
    rw [← length_fragment]
    exact (List.getElem?_eq_some_iff.1 h).1
  rw [fragment_getElem?_of_several hL hi] at h
  exact ⟨hi, (Option.some.inj h).symm⟩

/-- Without their sequence bytes the segments are the consecutive slices of the data, so put together they
are its front (41_fragmenter.md R159, R160). -/
theorem flatten_tail_fragment {data : List Byte} (hL : 250 < data.length) (legacy : Bool) :
    ((fragment data legacy).map List.tail).flatten = data.take (249 * segCount data.length legacy) := by
  have hslices : ((fragment data legacy).map List.tail).flatten =
      (List.range (segCount data.length legacy)).flatMap fun i => slice data (i * 249) ((i + 1) * 249) := by
    rw [fragment_several hL, List.map_map, List.flatMap_def]
    rfl
  rw [hslices, flatMap_slices, Nat.mul_comm]

/-- Settles O33: ceil(L / 249) slices of 249 bytes cover the data. -/
theorem correctedModeLosesNothing : Obligations.CorrectedModeLosesNothing := by
  refine fun data => ⟨fragment_single, fun hL => ?_⟩
  have hcount : segCount data.length false = ceilDiv data.length 249 := segCountCorrected_of_lt hL
  rw [flatten_tail_fragment hL, hcount]
  exact List.take_of_length_le (le_mul_ceilDiv _ (by decide))

/-- Settles O32: slice i starts inside the data, and ends inside it when segment i + 1 exists. -/
theorem segmentLengths : Obligations.SegmentLengths := by
  intro data seg legacy i hL hseg
  obtain ⟨hi, rfl⟩ := eq_segment_of_fragment_getElem? hL hseg
  have hstart := segStart_lt hL hi
  have hnext : i + 1 < segCount data.length legacy → (i + 1) * 249 < data.length := segStart_lt hL
  simp only [List.length_cons, List.length_take, List.length_drop]
  omega

/-- Settles O35: a segment begins with its sequence byte, and with more than one segment the first is not
the last. -/
theorem boundaryFlagsMarkTheEnds : Obligations.BoundaryFlagsMarkTheEnds := by
  intro data seg legacy i hL hseg
  obtain ⟨-, rfl⟩ := eq_segment_of_fragment_getElem? hL hseg
  have hseveral := (one_lt_segCount_iff data.length legacy).2 hL
  rw [List.getD_cons_zero, seqByte_first, seqByte_last]
  simp only [decide_eq_true_eq, true_and]
  omega

/-! ### The two modes -/

/-- Settles O34: legacy segmentation keeps the first 249 n bytes, and the data is at most 250 n long. -/
theorem legacyModeLosesExactlyTheTail : Obligations.LegacyModeLosesExactlyTheTail := by
  intro data hn
  have hL : 250 < data.length := (one_lt_segCount_iff data.length true).1 hn
  have hcover : data.length ≤ 250 * segCountLegacy data.length := by
    rw [segCountLegacy_of_pos (by omega)]
    exact le_mul_ceilDiv _ (by decide)
  have hkept : ((fragment data true).map List.tail).flatten = data.take (249 * segCountLegacy data.length) :=
    flatten_tail_fragment hL true
  refine ⟨hkept, by omega, ?_⟩
  rw [hkept, ne_eq, List.take_eq_self_iff]
  omega

/-- The legacy count reaches the corrected one exactly when its slices cover the data
(41_fragmenter.md R163). -/
theorem segCountCorrected_le_legacy_iff {L : Nat} (hL : 250 < L) :
    segCountCorrected L ≤ segCountLegacy L ↔ L ≤ 249 * segCountLegacy L := by
  rw [segCountCorrected_of_lt hL, ceilDiv_le_iff (by decide)]

theorem segCountLegacy_le_corrected {L : Nat} (hL : 250 < L) : segCountLegacy L ≤ segCountCorrected L := by
  have hcover := le_mul_ceilDiv L (b := 249) (by decide)
  rw [segCountLegacy_of_pos (by omega), segCountCorrected_of_lt hL, ceilDiv_le_iff (by decide)]
  omega

theorem fragment_eq_iff_of_several {data : List Byte} (hL : 250 < data.length) :
    fragment data true = fragment data false ↔ segCountLegacy data.length = segCountCorrected data.length := by
  constructor <;> intro h
  · have hlength := congrArg List.length h
    rw [length_fragment, length_fragment] at hlength
    exact hlength
  · have hcount : segCount data.length true = segCount data.length false := h
    rw [fragment_several hL, fragment_several hL, hcount]

/-- Settles O36: above 250 bytes the modes differ in the segment count alone, and the legacy count is the
smaller one unless its slices cover the data. -/
theorem modesAgreeIffNothingIsLost : Obligations.ModesAgreeIffNothingIsLost := by
  intro data
  obtain hshort | hL := le_or_gt data.length 250
  · have hcounts : segCountLegacy data.length = 1 ∧ segCountCorrected data.length = 1 := by
      have hlegacy := length_fragment data true
      have hcorrected := length_fragment data false
      rw [fragment_single hshort] at hlegacy hcorrected
      exact ⟨hlegacy.symm, hcorrected.symm⟩
    obtain ⟨hlegacy, hcorrected⟩ := hcounts
    rw [fragment_single hshort, fragment_single hshort, hlegacy, hcorrected]
    exact ⟨iff_of_true rfl (.inl hshort), by omega⟩
  · have hle := segCountLegacy_le_corrected hL
    have hiff := segCountCorrected_le_legacy_iff hL
    rw [fragment_eq_iff_of_several hL]
    omega

end Sys2Proof.Machine
end

section
/-! PROOFS. The frame of a segment chunk by chunk: its length, where each chunk stands, and the segment read
back from it (30_encoding.md R91, R92, 42_frame_builder.md R187 to R189). -/

namespace Sys2Proof.Machine

/-! ### A segment, its first chunk and the rest -/

theorem ceilDiv_add_self {b : Nat} (a : Nat) (hb : 0 < b) : ceilDiv (a + b) b = ceilDiv a b + 1 := by
  rw [ceilDiv, ceilDiv, show a + b + b - 1 = a + b - 1 + b by omega, Nat.add_div_right _ hb]

theorem ceilDiv_eq_one {a b : Nat} (ha : 0 < a) (hab : a ≤ b) : ceilDiv a b = 1 := by
  have hb : 0 < b := Nat.lt_of_lt_of_le ha hab
  have hle := (ceilDiv_le_iff hb (a := a) (n := 1)).2 (by omega)
  have hpos := ceilDiv_pos hb ha
  omega

/-- One part taken away leaves one part fewer, the last one also when it is short. -/
theorem ceilDiv_sub_add_one {a b : Nat} (hb : 0 < b) (ha : 0 < a) : ceilDiv a b = ceilDiv (a - b) b + 1 := by
  obtain hshort | hlong := Nat.le_total a b
  · rw [ceilDiv_eq_one ha hshort, Nat.sub_eq_zero_of_le hshort, ceilDiv_zero hb]
  · rw [← ceilDiv_add_self _ hb, Nat.sub_add_cancel hlong]

theorem chunks_nil : chunks [] = [] := rfl

theorem chunks_of_ne_nil {seg : List Byte} (h : seg ≠ []) :
    chunks seg = seg.take 16 :: chunks (seg.drop 16) := by
  have hcount : ceilDiv seg.length 16 = ceilDiv (seg.drop 16).length 16 + 1 := by
    rw [List.length_drop, ← ceilDiv_sub_add_one (by decide) (List.length_pos_iff.2 h)]
  have hrest : chunkAt seg ∘ Nat.succ = chunkAt (seg.drop 16) := funext fun k => by
    rw [Function.comp_apply, chunkAt_eq_take_drop, chunkAt_eq_take_drop, List.drop_drop, Nat.mul_succ,
      Nat.add_comm]
  rw [chunks, chunks, hcount, List.range_succ_eq_map, List.map_cons, List.map_map, hrest,
    chunkAt_eq_take_drop, Nat.mul_zero, List.drop_zero]

theorem body_nil : body [] = [] := rfl

theorem body_of_ne_nil {seg : List Byte} (h : seg ≠ []) :
    body seg = seg.take 16 ++ checksum (seg.take 16) ++ body (seg.drop 16) := by
  rw [body, body, chunks_of_ne_nil h, List.flatMap_cons]

/-- Settles O42: the last chunk begins inside the segment, so it holds a byte. -/
theorem chunkSizes : Obligations.ChunkSizes := by
  refine fun seg => ⟨fun k ch hch => ?size, ?none, ?_⟩
  case size =>
    have hk : k < ceilDiv seg.length 16 := by
      rw [← length_chunks]
      exact (List.getElem?_eq_some_iff.1 hch).1
    have hstart : 16 * k < seg.length := mul_lt_of_lt_ceilDiv (by decide) hk
    rw [eq_chunkAt_of_chunks_getElem? hch, length_chunkAt]
    omega
  case none =>
    intro hnone
    by_contra hne
    rw [chunks_of_ne_nil hne] at hnone
    cases hnone
  · rintro rfl
    exact chunks_nil

/-! ### Reading the segment back -/

/-- Deleting the checksum after every chunk of a body leaves the segment, by induction on the number of
chunks (42_frame_builder.md R189). -/
theorem stripChunks_body {k : Nat} {seg : List Byte} (hk : ceilDiv seg.length 16 = k) :
    stripChunks k seg.length (body seg) = seg := by
  induction k generalizing seg with
  | zero =>
    obtain rfl : seg = [] := by
      by_contra hne
      exact (ceilDiv_pos (by decide) (List.length_pos_iff.2 hne)).ne' hk
    rfl
  | succ k ih =>
    have hne : seg ≠ [] := by
      rintro rfl
      simp at hk
    have hchunk : (seg.take 16).length = min 16 seg.length := List.length_take
    have hrest : ceilDiv (seg.drop 16).length 16 = k := by
      rw [ceilDiv_sub_add_one (by decide) (List.length_pos_iff.2 hne)] at hk
      rw [List.length_drop]
      exact Nat.succ.inj hk
    have htake : (body seg).take (min 16 seg.length) = seg.take 16 := by
      rw [body_of_ne_nil hne, List.append_assoc, List.take_left' hchunk]
    have hdrop : (body seg).drop (min 16 seg.length + 2) = body (seg.drop 16) := by
      rw [body_of_ne_nil hne, List.drop_left' (by rw [List.length_append, hchunk, checksum_length])]
    rw [stripChunks, htake, hdrop, ← List.length_drop, ih hrest, List.take_append_drop]

/-- Byte 2 of a frame is the LENGTH byte of its header (30_encoding.md R89). -/
theorem frame_lengthByte (seg : List Byte) (c : Byte) (d r : Half) :
    (frame seg c d r).getD 2 0#8 = BitVec.ofNat 8 (seg.length + lenBias) := rfl

theorem statedLength_frame {seg : List Byte} (hseg : seg.length ≤ 250) (c : Byte) (d r : Half) :
    statedLength (frame seg c d r) = seg.length := by
  rw [statedLength, frame_lengthByte, lengthByte_toNat hseg, Nat.add_sub_cancel]

/-- Settles O40: byte 2 states the segment's length, and what follows the preamble is the body. -/
theorem segmentIsReadBackFromFrame : Obligations.SegmentIsReadBackFromFrame := by
  intro seg c d r hseg
  rw [segmentOf, statedLength_frame hseg, frame_drop_preamble, stripChunks_body rfl]

/-! ### The length of a frame -/

/-- Every chunk of a body adds the two bytes of its checksum. -/
theorem length_flatMap_append_checksum (chs : List (List Byte)) :
    (chs.flatMap fun ch => ch ++ checksum ch).length = chs.flatten.length + 2 * chs.length := by
  induction chs with
  | nil => rfl
  | cons ch chs ih =>
    simp only [List.flatMap_cons, List.flatten_cons, List.length_append, List.length_cons, checksum_length, ih]
    omega

theorem length_frame (seg : List Byte) (c : Byte) (d r : Half) :
    (frame seg c d r).length = 10 + seg.length + 2 * ceilDiv seg.length 16 := by
  rw [frame, List.length_append, preamble_length, body, length_flatMap_append_checksum, flatten_chunks,
    length_chunks, Nat.add_assoc]

theorem length_frame_le {seg : List Byte} (hseg : seg.length ≤ 250) (c : Byte) (d r : Half) :
    (frame seg c d r).length ≤ 292 := by
  have hchunks : ceilDiv seg.length 16 ≤ 16 := (ceilDiv_le_iff (by decide)).2 (by omega)
  rw [length_frame]
  omega

/-- Settles O39: the lengths of the preamble, the chunks and their checksums, added up. -/
theorem frameLengthAccounting : Obligations.FrameLengthAccounting := by
  intro seg c d r hseg
  have hlength := length_frame seg c d r
  refine ⟨hlength, length_frame_le hseg c d r, statedLength_frame hseg c d r, ?_⟩
  rw [statedLength_frame hseg, hlength, frameLength]

/-! ### Where a chunk stands -/

/-- A chunk with its checksum takes 18 bytes of the body, unless it is the last (30_encoding.md R92). -/
theorem drop_18_body (seg : List Byte) : (body seg).drop 18 = body (seg.drop 16) := by
  obtain rfl | hne := eq_or_ne seg []
  · rfl
  obtain hshort | hlong := Nat.lt_or_ge seg.length 16
  · have hlast : seg.drop 16 = [] := List.drop_of_length_le hshort.le
    rw [body_of_ne_nil hne, hlast, body_nil, List.append_nil]
    refine List.drop_of_length_le ?_
    rw [List.length_append, List.length_take, checksum_length]
    omega
  · rw [body_of_ne_nil hne, List.drop_left']
    rw [List.length_append, List.length_take, checksum_length, Nat.min_eq_left hlong]

theorem drop_mul_18_body (seg : List Byte) (k : Nat) : (body seg).drop (18 * k) = body (seg.drop (16 * k)) := by
  induction k with
  | zero => rfl
  | succ k ih => rw [Nat.mul_succ, ← List.drop_drop, ih, drop_18_body, List.drop_drop, Nat.mul_succ]

/-- Settles O41: behind the preamble and k chunks with their checksums comes the body of what is left of the
segment. -/
theorem chunkOffsetsInFrame : Obligations.ChunkOffsetsInFrame := by
  intro seg c d r k _ hk
  have hstart : 16 * k < seg.length := mul_lt_of_lt_ceilDiv (by decide) hk
  have hne : seg.drop (16 * k) ≠ [] := by
    rw [ne_eq, List.drop_eq_nil_iff]
    omega
  have hlength : ((seg.drop (16 * k)).take 16).length = min 16 (seg.length - 16 * k) := by
    rw [List.length_take, List.length_drop]
  have hrest : (frame seg c d r).drop (10 + 18 * k) = (seg.drop (16 * k)).take 16 ++
      (checksum ((seg.drop (16 * k)).take 16) ++ body ((seg.drop (16 * k)).drop 16)) := by
    rw [← List.drop_drop, frame_drop_preamble, drop_mul_18_body, body_of_ne_nil hne, List.append_assoc]
  constructor
  · rw [hrest, List.take_left' hlength]
  · rw [← List.drop_drop, hrest, List.drop_left' hlength, List.take_left' (checksum_length _), checksum]

/-! ### The frames of BUILD_FRAMES -/

theorem buildFrames_getElem?_eq_some {data f : List Byte} {c : Byte} {d r : Half} {legacy : Bool} {i : Nat}
    (h : (buildFrames data c d r legacy)[i]? = some f) :
    ∃ seg, (fragment data legacy)[i]? = some seg ∧ frame seg c d r = f := by
  rwa [buildFrames, List.getElem?_map, Option.map_eq_some_iff] at h

/-- Every segment but the last is full (41_fragmenter.md R158). -/
theorem length_segment_of_not_last {data seg : List Byte} {legacy : Bool} {i : Nat}
    (h : (fragment data legacy)[i]? = some seg) (hi : i + 1 < segCount data.length legacy) :
    seg.length = 250 := by
  have hL : 250 < data.length := (one_lt_segCount_iff data.length legacy).1 (by omega)
  obtain ⟨-, -, -, hfull⟩ := segmentLengths data seg legacy i hL h
  exact hfull hi

/-- Settles O44: frame i is the frame of segment i, which is within 250 bytes. -/
theorem buildFramesFramesEverySegment : Obligations.BuildFramesFramesEverySegment := by
  intro data c d r legacy
  refine ⟨by rw [buildFrames, List.length_map, length_fragment], fun i f hf => ?_⟩
  obtain ⟨seg, hseg, rfl⟩ := buildFrames_getElem?_eq_some hf
  have hle : seg.length ≤ 250 := length_le_of_mem_fragment (List.mem_of_getElem? hseg)
  refine ⟨⟨seg, hseg, rfl, ?length⟩, ?addressing, length_frame_le hle c d r, fun hi => ?full⟩
  case length => rw [frame_lengthByte, lengthByte_toNat hle]
  case addressing =>
    rw [frame_take_header]
    rfl
  case full =>
    have hfull := length_segment_of_not_last hseg hi
    rw [length_frame, frame_lengthByte, hfull]
    exact ⟨rfl, rfl⟩

end Sys2Proof.Machine
end

section
/-! PROOFS. The beats of a unit list: by index, how many mark a boundary, and the units read back from them
(30_encoding.md R94 to R96, 40_command_interface.md R132, 44_build_frames.md R234). -/

namespace Sys2Proof.Machine

/-! ### One byte and one unit at a time -/

theorem byteBeats_cons (last : Bool) (b : Byte) (bs : List Byte) :
    byteBeats last (b :: bs) =
      { data := b, eou := bs.isEmpty, eom := bs.isEmpty && last, empty := false } :: byteBeats last bs := by
  cases bs <;> rfl

theorem unitBeats_nil (last : Bool) : unitBeats [] last = [emptyUnitBeat last] := rfl

theorem unitBeats_of_ne_nil {u : List Byte} (h : u ≠ []) (last : Bool) : unitBeats u last = byteBeats last u :=
  if_neg h

theorem beats_cons (u : List Byte) (us : List (List Byte)) :
    beats (u :: us) = unitBeats u us.isEmpty ++ beats us := by
  cases us with
  | nil => exact (List.append_nil _).symm
  | cons u' us => rfl

/-! ### By index -/

theorem byteBeats_eq_map_range (last : Bool) (u : List Byte) :
    byteBeats last u = (List.range u.length).map fun j =>
      { data := u.getD j 0#8, eou := decide (j = u.length - 1),
        eom := decide (j = u.length - 1) && last, empty := false } := by
  induction u with
  | nil => rfl
  | cons b bs ih =>
    have hfirst : bs.isEmpty = decide (0 = bs.length) := by cases bs <;> rfl
    have hshift : ∀ j ∈ List.range bs.length, decide (j = bs.length - 1) = decide (j + 1 = bs.length) := by
      intro j hj
      have := List.mem_range.1 hj
      exact decide_eq_decide.2 (by omega)
    rw [byteBeats_cons, ih, List.length_cons, List.range_succ_eq_map, List.map_cons, List.map_map,
      Nat.add_sub_cancel, hfirst]
    refine congrArg₂ List.cons rfl (List.map_congr_left fun j hj => ?_)
    simp only [Function.comp_apply, List.getD_cons_succ, hshift j hj]

theorem beats_eq_flatMap_range (us : List (List Byte)) :
    beats us = (List.range us.length).flatMap fun k =>
      unitBeats (us.getD k []) (decide (k = us.length - 1)) := by
  induction us with
  | nil => rfl
  | cons u us ih =>
    have hfirst : us.isEmpty = decide (0 = us.length) := by cases us <;> rfl
    have hshift : ∀ k ∈ List.range us.length, decide (k = us.length - 1) = decide (k + 1 = us.length) := by
      intro k hk
      have := List.mem_range.1 hk
      exact decide_eq_decide.2 (by omega)
    rw [beats_cons, ih, List.length_cons, List.range_succ_eq_map, List.flatMap_cons, List.flatMap_map,
      Nat.add_sub_cancel, hfirst]
    refine congrArg₂ (· ++ ·) rfl (List.flatMap_congr fun k hk => ?_)
    simp only [List.getD_cons_succ, hshift k hk]

/-- Settles O25: the empty unit apart, both equations are the recursion read off by index. -/
theorem beatsOfUnitsByIndex : Obligations.BeatsOfUnitsByIndex := by
  refine ⟨fun u last => ?_, fun us _ => beats_eq_flatMap_range us⟩
  split_ifs with hempty
  · rw [List.length_eq_zero_iff.1 hempty, unitBeats_nil]
    rfl
  · rw [unitBeats_of_ne_nil (List.length_pos_iff.1 (by omega)), byteBeats_eq_map_range]

/-! ### Boundaries -/

theorem filter_eou_byteBeats {u : List Byte} (h : u ≠ []) (last : Bool) :
    ((byteBeats last u).filter (·.eou)).length = 1 := by
  induction u with
  | nil => exact absurd rfl h
  | cons b bs ih =>
    rw [byteBeats_cons]
    cases bs with
    | nil => rfl
    | cons b' bs => simpa using ih (by simp)

theorem filter_eom_byteBeats {u : List Byte} (h : u ≠ []) (last : Bool) :
    ((byteBeats last u).filter (·.eom)).length = if last then 1 else 0 := by
  induction u with
  | nil => exact absurd rfl h
  | cons b bs ih =>
    rw [byteBeats_cons]
    cases bs with
    | nil => cases last <;> rfl
    | cons b' bs => simpa using ih (by simp)

theorem getLast?_byteBeats {u : List Byte} (h : u ≠ []) (last : Bool) :
    (byteBeats last u).getLast?.map (·.eom) = some last := by
  induction u with
  | nil => exact absurd rfl h
  | cons b bs ih =>
    rw [byteBeats_cons]
    cases bs with
    | nil => rfl
    | cons b' bs =>
      rw [byteBeats_cons, List.getLast?_cons_cons, ← byteBeats_cons]
      exact ih (by simp)

/-- A unit has one eou beat; it has an eom beat, its last, when it is the command's last unit. -/
theorem unitBeats_boundaries (u : List Byte) (last : Bool) :
    ((unitBeats u last).filter (·.eou)).length = 1 ∧
    ((unitBeats u last).filter (·.eom)).length = (if last then 1 else 0) ∧
    (unitBeats u last).getLast?.map (·.eom) = some last := by
  obtain rfl | hne := eq_or_ne u []
  · cases last <;> exact ⟨rfl, rfl, rfl⟩
  · rw [unitBeats_of_ne_nil hne]
    exact ⟨filter_eou_byteBeats hne last, filter_eom_byteBeats hne last, getLast?_byteBeats hne last⟩

theorem filter_eou_beats (us : List (List Byte)) : ((beats us).filter (·.eou)).length = us.length := by
  induction us with
  | nil => rfl
  | cons u us ih =>
    obtain ⟨heou, -, -⟩ := unitBeats_boundaries u us.isEmpty
    rw [beats_cons, List.filter_append, List.length_append, heou, ih, List.length_cons, Nat.add_comm]

theorem filter_eom_beats {us : List (List Byte)} (h : us ≠ []) :
    ((beats us).filter (·.eom)).length = 1 := by
  induction us with
  | nil => exact absurd rfl h
  | cons u us ih =>
    obtain ⟨-, heom, -⟩ := unitBeats_boundaries u us.isEmpty
    rw [beats_cons, List.filter_append, List.length_append, heom]
    cases us with
    | nil => rfl
    | cons u' us => exact (Nat.zero_add _).trans (ih (by simp))

theorem getLast?_beats {us : List (List Byte)} (h : us ≠ []) :
    (beats us).getLast?.map (·.eom) = some true := by
  induction us with
  | nil => exact absurd rfl h
  | cons u us ih =>
    obtain ⟨-, -, hlast⟩ := unitBeats_boundaries u us.isEmpty
    rw [beats_cons]
    cases us with
    | nil => simpa [beats] using hlast
    | cons u' us =>
      rw [List.getLast?_append_of_ne_nil _ (beats_ne_nil (by simp))]
      exact ih (by simp)

/-- From anywhere in the beats of a unit list on, the next beat has eom = 1 exactly when it is the last. -/
theorem eom_iff_last_of_suffix {us : List (List Byte)} {b : Beat} {rest : List Beat}
    (h : b :: rest <:+ beats us) : b.eom = true ↔ rest = [] := by
  have hne : us ≠ [] := by
    rintro rfl
    simp [beats] at h
  obtain ⟨front, hfront⟩ := h
  have hcount := filter_eom_beats hne
  have hlast := getLast?_beats hne
  rw [← hfront] at hcount hlast
  rw [List.getLast?_append_cons] at hlast
  constructor
  · intro heom
    by_contra hrest
    obtain ⟨x, hx⟩ := Option.ne_none_iff_exists'.1 (mt List.getLast?_eq_none_iff.1 hrest)
    rw [List.getLast?_cons, hx] at hlast
    have hxeom : x.eom = true := Option.some.inj hlast
    have hpos : 0 < (rest.filter Beat.eom).length :=
      List.length_pos_of_mem (List.mem_filter.2 ⟨List.mem_of_getLast? hx, hxeom⟩)
    rw [List.filter_append, List.filter_cons_of_pos heom, List.length_append, List.length_cons] at hcount
    omega
  · rintro rfl
    exact Option.some.inj hlast

/-- The unit count of R132 is the number of units of R128. -/
theorem length_result (lat : Latched) (data : List Byte) :
    (result lat data).length = unitCount lat.op data.length lat.legacy := by
  cases hop : lat.op <;> simp only [result, hop, unitCount]
  case buildFrames => rw [buildFrames, List.length_map, length_fragment]
  case fragment => exact length_fragment data lat.legacy
  case buildFrame => rfl
  case checksum => rfl

/-- Settles O26: one eou beat a unit, one eom beat in all, the last. -/
theorem unitsCountsTheEouBeats : Obligations.UnitsCountsTheEouBeats := by
  intro lat data hlen
  have hunits := length_result lat data
  rw [hlen] at hunits
  exact ⟨hunits, (filter_eou_beats _).trans hunits, filter_eom_beats (result_ne_nil lat data),
    getLast?_beats (result_ne_nil lat data)⟩

/-! ### Reading the units back -/

theorem collectUnits_byteBeats {u : List Byte} (h : u ≠ []) (last : Bool) (part : List Byte) (bs : List Beat) :
    collectUnits part (byteBeats last u ++ bs) =
      ((part ++ u) :: (collectUnits [] bs).1, (collectUnits [] bs).2) := by
  induction u generalizing part with
  | nil => exact absurd rfl h
  | cons b u ih =>
    rw [byteBeats_cons, List.cons_append]
    cases u with
    | nil => simp [collectUnits, byteBeats]
    | cons b' u => simpa [collectUnits] using ih (by simp) (part ++ [b])

theorem collectUnits_unitBeats (u : List Byte) (last : Bool) (bs : List Beat) :
    collectUnits [] (unitBeats u last ++ bs) = (u :: (collectUnits [] bs).1, (collectUnits [] bs).2) := by
  obtain rfl | hne := eq_or_ne u []
  · rfl
  · rw [unitBeats_of_ne_nil hne, collectUnits_byteBeats hne, List.nil_append]

theorem unitsOfBeats_beats (us : List (List Byte)) : unitsOfBeats (beats us) = (us, []) := by
  rw [unitsOfBeats]
  induction us with
  | nil => rfl
  | cons u us ih => rw [beats_cons, collectUnits_unitBeats, ih]

/-- Settles O27: each unit's beats give the unit and leave nothing unfinished. -/
theorem unitsAreReadBackFromBeats : Obligations.UnitsAreReadBackFromBeats :=
  fun us _ => unitsOfBeats_beats us

/-! ### Empty beats -/

theorem byteBeats_fields {u : List Byte} {last : Bool} {b : Beat} (h : b ∈ byteBeats last u) :
    (b.eom = true → b.eou = true) ∧ b.empty = false := by
  induction u with
  | nil => cases h
  | cons x u ih =>
    rw [byteBeats_cons] at h
    obtain rfl | h := List.mem_cons.1 h
    · exact ⟨fun heom => (Bool.and_eq_true_iff.1 heom).1, rfl⟩
    · exact ih h

/-- A beat of a unit list has eom only with eou, and is empty only for a unit with no bytes. -/
theorem beats_fields {us : List (List Byte)} {b : Beat} (h : b ∈ beats us) :
    (b.eom = true → b.eou = true) ∧ (b.empty = true → [] ∈ us) := by
  induction us with
  | nil => cases h
  | cons u us ih =>
    rw [beats_cons] at h
    obtain h | h := List.mem_append.1 h
    · obtain rfl | hne := eq_or_ne u []
      · rw [List.mem_singleton.1 h]
        exact ⟨fun _ => rfl, fun _ => List.mem_cons_self⟩
      · rw [unitBeats_of_ne_nil hne] at h
        obtain ⟨heou, hempty⟩ := byteBeats_fields h
        exact ⟨heou, fun htrue => by simp [hempty] at htrue⟩
    · obtain ⟨heou, hmem⟩ := ih h
      exact ⟨heou, fun htrue => List.mem_cons_of_mem _ (hmem htrue)⟩

theorem frame_ne_nil (seg : List Byte) (c : Byte) (d r : Half) : frame seg c d r ≠ [] :=
  List.ne_nil_of_length_pos (by rw [length_frame]; omega)

theorem nil_notMem_buildFrames (data : List Byte) (c : Byte) (d r : Half) (legacy : Bool) :
    [] ∉ buildFrames data c d r legacy := by
  intro h
  obtain ⟨seg, -, hframe⟩ := List.mem_map.1 h
  exact frame_ne_nil seg c d r hframe

theorem eq_nil_of_nil_mem_fragment {data : List Byte} {legacy : Bool} (h : [] ∈ fragment data legacy) :
    data = [] := by
  obtain hL | hshort := Nat.lt_or_ge 250 data.length
  · rw [fragment_several hL] at h
    obtain ⟨i, -, hseg⟩ := List.mem_map.1 h
    cases hseg
  · rw [fragment_single hshort] at h
    exact (List.mem_singleton.1 h).symm

/-- A command's only empty unit is that of FRAGMENT on empty input (30_encoding.md R95). -/
theorem fragment_of_nil_mem_result {lat : Latched} {data : List Byte} (h : [] ∈ result lat data) :
    lat.op = .fragment ∧ data = [] := by
  cases hop : lat.op <;> simp only [result, hop] at h
  case buildFrames => exact absurd h (nil_notMem_buildFrames data _ _ _ _)
  case fragment => exact ⟨rfl, eq_nil_of_nil_mem_fragment h⟩
  case buildFrame => exact absurd (List.mem_singleton.1 h).symm (frame_ne_nil data _ _ _)
  case checksum => cases List.mem_singleton.1 h

theorem beats_result_of_empty_fragment {lat : Latched} (h : lat.op = .fragment) :
    beats (result lat []) = [emptyUnitBeat true] := by
  simp only [result, h, fragment_single (show ([] : List Byte).length ≤ 250 by decide)]
  rfl

theorem Beat.pack_fields (b : Beat) : b.pack.extractLsb' 0 8 = b.data ∧ b.pack.getLsbD 8 = b.eou ∧
    b.pack.getLsbD 9 = b.eom ∧ b.pack.getLsbD 10 = b.empty := by
  refine ⟨?_, ?_, ?_, ?_⟩
  · rw [Beat.pack, BitVec.extractLsb'_append_eq_right]
  all_goals
    simp only [Beat.pack, BitVec.getLsbD_append]
    simp

/-- Settles O28: an empty beat comes from an empty unit, and a command has one on the empty FRAGMENT only. -/
theorem beatEncoding : Obligations.BeatEncoding := by
  refine ⟨Beat.pack_fields, fun lat data b hb => ?_⟩
  obtain ⟨heou, hmem⟩ := beats_fields hb
  refine ⟨heou, fun hempty => ?_⟩
  obtain ⟨hop, rfl⟩ := fragment_of_nil_mem_result (hmem hempty)
  rw [beats_result_of_empty_fragment hop] at hb
  exact ⟨hop, rfl, List.mem_singleton.1 hb⟩

/-! ### How many beats BUILD_FRAMES delivers -/

theorem length_byteBeats (last : Bool) (u : List Byte) : (byteBeats last u).length = u.length := by
  rw [byteBeats_eq_map_range, List.length_map, List.length_range]

/-- One beat a byte, when no unit is empty. -/
theorem length_beats {us : List (List Byte)} (h : [] ∉ us) : (beats us).length = (us.map List.length).sum := by
  induction us with
  | nil => rfl
  | cons u us ih =>
    obtain ⟨hne, hrest⟩ := not_or.1 (mt List.mem_cons.2 h)
    rw [beats_cons, unitBeats_of_ne_nil (Ne.symm hne), List.length_append, length_byteBeats, ih hrest,
      List.map_cons, List.sum_cons]

/-- Settles O45: no frame is empty, so each of its bytes is one beat. -/
theorem buildFramesBeatCount : Obligations.BuildFramesBeatCount := by
  intro data c d r legacy
  have hnil := nil_notMem_buildFrames data c d r legacy
  constructor
  · rw [length_beats hnil, buildFrames, List.map_map]
    simp only [Function.comp_def, length_frame]
  · intro b hb
    obtain ⟨-, hempty⟩ := beats_fields hb
    exact Bool.eq_false_iff.2 fun htrue => hnil (hempty htrue)

end Sys2Proof.Machine
end

section
/-! PROOFS. The register port and the host's operations at it (20_memory.md R60 to R64, 30_encoding.md R84,
60_exceptions.md R262). -/

namespace Sys2Proof.Machine

/-! ### Admitted accesses -/

theorem hostOp_wr_of_admitted {w : Width} {off : Nat} (h : accessRefusal w off = none) (v : Word) (s : State) :
    hostOp (.wr w off v) s = regWrite off v s := by
  rw [hostOp, hostWrite, h]

theorem hostOp_rd_of_admitted {w : Width} {off : Nat} (h : accessRefusal w off = none) (s : State) :
    hostOp (.rd w off) s = .next (recordRead off s) := by
  rw [hostOp, hostRead, h]

theorem hostOp_poll_of_admitted {off : Nat} (h : accessRefusal .word off = none) (mask val : Word) (s : State) :
    hostOp (.poll off mask val) s = .next (if regRead off s &&& mask = val then recordRead off s
      else again (.poll off mask val) (recordRead off s)) := by
  rw [hostOp, hostPoll, h]
  split_ifs <;> rfl

/-- A write that goes on was admitted. -/
theorem regWrite_of_hostOp_wr {w : Width} {off : Nat} {v : Word} {s t : State}
    (h : hostOp (.wr w off v) s = .next t) : regWrite off v s = .next t := by
  cases hr : accessRefusal w off with
  | none => rwa [hostOp_wr_of_admitted hr] at h
  | some r =>
    rw [hostOp, hostWrite, hr] at h
    cases h

theorem eq_recordRead_of_hostOp_rd {w : Width} {off : Nat} {s t : State}
    (h : hostOp (.rd w off) s = .next t) : t = recordRead off s := by
  cases hr : accessRefusal w off with
  | none =>
    rw [hostOp_rd_of_admitted hr] at h
    exact (Host.Outcome.next.inj h).symm
  | some r =>
    rw [hostOp, hostRead, hr] at h
    cases h

theorem eq_recordRead_of_hostOp_poll {off : Nat} {mask val : Word} {s t : State}
    (h : hostOp (.poll off mask val) s = .next t) :
    t = recordRead off s ∨ t = again (.poll off mask val) (recordRead off s) := by
  cases hr : accessRefusal .word off with
  | none =>
    rw [hostOp_poll_of_admitted hr] at h
    obtain rfl := Host.Outcome.next.inj h
    split_ifs
    · exact .inl rfl
    · exact .inr rfl
  | some r =>
    rw [hostOp, hostPoll, hr] at h
    cases h

theorem accessRefusal_of_aligned_word {off : Nat} (haligned : off % 4 = 0) (hwindow : off ≤ 0x3C) :
    accessRefusal .word off = none :=
  (accessRefusal_eq_none_iff .word off).2 ⟨rfl, haligned, by omega⟩

/-- The offsets the port admits end at 0x3C: the next aligned one is 0x40. -/
theorem accessRefusal_isSome {w : Width} {off : Nat} (h : w ≠ .word ∨ off % 4 ≠ 0 ∨ 0x3C < off) :
    ∃ r, accessRefusal w off = some r := by
  refine Option.ne_none_iff_exists'.1 fun hnone => ?_
  obtain ⟨rfl, haligned, hwindow⟩ := (accessRefusal_eq_none_iff w off).1 hnone
  obtain h | h | h := h
  · exact h rfl
  · exact h haligned
  · omega

/-- Settles O9: `accessRefusal` decides both operations. -/
theorem portAdmitsAlignedWordsOnly : Obligations.PortAdmitsAlignedWordsOnly := by
  refine fun w off v s => ⟨fun hout => ?_, ?_⟩
  · obtain ⟨r, hr⟩ := accessRefusal_isSome hout
    exact ⟨⟨r, by rw [hostOp, hostWrite, hr]⟩, ⟨r, by rw [hostOp, hostRead, hr]⟩⟩
  · rintro rfl haligned hwindow
    have hadmit := accessRefusal_of_aligned_word haligned hwindow
    exact ⟨hostOp_wr_of_admitted hadmit v s, regWrite_next off v s, hostOp_rd_of_admitted hadmit s⟩

/-- Settles O56: a step has no fault to stop with, and is refused only with the host's operation. -/
theorem stepStopsOnlyOutsideThePort : Obligations.StepStopsOnlyOutsideThePort := by
  refine fun s => ⟨fun hstops => ?_, ?_⟩
  · cases hstep : step s with
    | next t => exact absurd hstep (hstops t)
    | fault r => cases r
    | refused r => exact step_refused hstep
  · rintro ⟨ts, op, p, hturns, hprog, hwf⟩ t hstep
    obtain ⟨r, hr⟩ := (hostOp_refused_iff op (popOp p (popTurn ts s))).2 hwf
    rw [step_of_host hturns hprog, hr] at hstep
    cases hstep

/-! ### The registers and their values -/

/-- Settles O5: `regAt` compares with the eight offsets in turn. -/
theorem registerWindowMap : Obligations.RegisterWindowMap := by
  refine ⟨rfl, rfl, rfl, rfl, rfl, rfl, rfl, rfl, fun off r => ⟨eq_offset_of_regAt, ?_⟩,
    fun off => regAt_eq_none_of_le⟩
  rintro rfl
  cases r <;> rfl

theorem regRead_of_unmapped {off : Nat} (h : 0x20 ≤ off) (s : State) : regRead off s = 0#32 := by
  rw [regRead, regAt_eq_none_of_le h]

/-- Settles O7: each mapped offset reads its register, and an admitted read is recorded. -/
theorem registerReadValues : Obligations.RegisterReadValues := by
  intro s
  refine ⟨rfl, rfl, ?config, ?ctrlCode, rfl, rfl, rfl, rfl, fun off h => regRead_of_unmapped h s,
    fun off haligned hwindow => hostOp_rd_of_admitted (accessRefusal_of_aligned_word haligned hwindow) s⟩
  case config =>
    change (BitVec.ofBool s.legacySeg).setWidth 32 = _
    cases s.legacySeg <;> rfl
  case ctrlCode =>
    change (s.ctrlCode.setWidth 32).toNat = _
    exact BitVec.toNat_setWidth_of_le (by decide)

theorem Phase.code_eq (p : Phase) :
    p.code = match p with | .idle => 0#2 | .load => 1#2 | .emit => 2#2 := by
  cases p <;> rfl

theorem State.status_bits (s : State) :
    s.status.getLsbD 0 = decide (s.phase ≠ .idle) ∧ s.status.getLsbD 1 = s.done ∧
    s.status.getLsbD 2 = s.err ∧ s.status.getLsbD 3 = false := by
  have hbusy : s.busy = decide (s.phase ≠ .idle) := by
    cases hp : s.phase <;> simp [State.busy, hp]
  refine ⟨?_, ?_, ?_, ?_⟩
  all_goals
    simp only [State.status, BitVec.getLsbD_append]
    simp [hbusy]

/-- Extracting a field skips the fields below it. -/
theorem State.status_fields (s : State) :
    s.status.extractLsb' 4 4 = s.errCode.code ∧ s.status.extractLsb' 8 2 = s.phase.code ∧
    s.status.extractLsb' 10 22 = 0#22 := by
  unfold State.status
  refine ⟨?_, ?_, ?_⟩
  · simp only [BitVec.extractLsb'_append_eq_of_le, Nat.reduceLeDiff, Nat.reduceSub,
      BitVec.extractLsb'_append_eq_right]
  · simp only [BitVec.extractLsb'_append_eq_of_le, Nat.reduceLeDiff, Nat.reduceSub,
      BitVec.extractLsb'_append_eq_right]
  · simp only [BitVec.extractLsb'_append_eq_of_le, Nat.reduceLeDiff, Nat.reduceSub]
    rfl

/-- Settles O8: the single bits, then the three wider fields. -/
theorem statusFieldLayout : Obligations.StatusFieldLayout := by
  refine ⟨fun s => ?_, rfl, rfl, rfl, rfl, rfl, rfl⟩
  obtain ⟨hbusy, hdone, herr, hzero⟩ := s.status_bits
  obtain ⟨hcode, hphase, hreserved⟩ := s.status_fields
  exact ⟨hbusy, hdone, herr, hzero, hcode, hphase.trans s.phase.code_eq, hreserved⟩

end Sys2Proof.Machine
end

section
/-! PROOFS. The OUT transfer, and what a step can do to a block that runs a command
(40_command_interface.md R127, R130, R136, 70_reset_and_hazards.md R285, R286). -/

namespace Sys2Proof.Machine

/-! ### Transfers -/

theorem outTransfer_of_not_emit {s : State} (h : s.phase ≠ .emit) : outTransfer s = s := by
  obtain ⟨-, hsame⟩ | ⟨b, hemit, -⟩ | ⟨b, b', rest, hemit, -⟩ := outTransfer_cases s
  · exact hsame
  · exact absurd hemit h
  · exact absurd hemit h

theorem outTransfer_of_emit {s : State} {b : Beat} {rest : List Beat} (hemit : s.phase = .emit)
    (hq : s.outq = b :: rest) :
    outTransfer s = if rest = [] then completeCommand (deliverBeat b rest s) else deliverBeat b rest s := by
  simp only [outTransfer, hemit, hq]

/-- Where no beat is offered the OUT transfer is not enabled. -/
theorem outTransfer_of_no_beat {s : State} (h : offeredBeat s = none) : outTransfer s = s := by
  obtain ⟨-, hsame⟩ | ⟨b, hemit, hq, -⟩ | ⟨b, b', rest, hemit, hq, -⟩ := outTransfer_cases s
  · exact hsame
  · simp [(offeredBeat_eq_some_iff s b).2 ⟨hemit, _, hq⟩] at h
  · simp [(offeredBeat_eq_some_iff s b).2 ⟨hemit, _, hq⟩] at h

theorem inTransfer_of_not_enabled {s : State} (h : s.phase ≠ .load ∨ s.hostIn = []) : inTransfer s = s := by
  obtain ⟨-, hsame⟩ | ⟨b, rest, hload, hin, -⟩ := inTransfer_cases s
  · exact hsame
  · simp [hload, hin] at h

/-- Settles O22: the two cases of `inTransfer_cases`. -/
theorem inputTransferTakesOldestByte : Obligations.InputTransferTakesOldestByte :=
  ⟨fun _ _ _ hload hin => inTransfer_of_load hload hin, fun _ h => inTransfer_of_not_enabled h⟩

/-- With `Inv` the block completes with exactly the beat that has eom = 1, since what is left of the output is
its tail. -/
theorem outTransfer_done_iff_eom {s : State} {b : Beat} (hinv : Inv s) (hb : offeredBeat s = some b) :
    (outTransfer s).done = true ↔ b.eom = true := by
  obtain ⟨hemit, rest, hq⟩ := (offeredBeat_eq_some_iff s b).1 hb
  obtain ⟨-, -, htail⟩ := hinv.emit_rest hemit
  obtain ⟨hdone, -⟩ := hinv.busy_flags (by simp [hemit])
  rw [hq] at htail
  rw [outTransfer_of_emit hemit hq, eom_iff_last_of_suffix htail]
  split_ifs with hrest <;> simp [hrest, hdone]

/-- Settles O23: the two cases of `outTransfer_of_emit`, and `outTransfer_done_iff_eom`. -/
theorem outputTransferDeliversOldestBeat : Obligations.OutputTransferDeliversOldestBeat := by
  refine ⟨fun s b rest hemit hq => ?_, fun _ h => outTransfer_of_not_emit h,
    fun _ _ hinv hb => outTransfer_done_iff_eom hinv hb⟩
  rw [outTransfer_of_emit hemit hq]
  split_ifs with hrest
  · subst hrest
    rfl
  · rfl

theorem outTransfer_keeps (s : State) :
    (outTransfer s).lat = s.lat ∧ (outTransfer s).units = s.units ∧ (outTransfer s).hostIn = s.hostIn := by
  obtain ⟨-, h⟩ | ⟨b, -, -, h⟩ | ⟨b, b', rest, -, -, h⟩ := outTransfer_cases s <;> simp [h]

theorem inTransfer_keeps (s : State) : (inTransfer s).lat = s.lat ∧ (inTransfer s).units = s.units ∧
    (inTransfer s).hostOut = s.hostOut := by
  obtain ⟨-, h⟩ | ⟨b, rest, -, -, ⟨-, h⟩ | ⟨-, h⟩⟩ := inTransfer_cases s <;> simp [h]

theorem outTransfer_prog (s : State) : (outTransfer s).prog = s.prog := by
  obtain ⟨-, h⟩ | ⟨b, -, -, h⟩ | ⟨b, b', rest, -, -, h⟩ := outTransfer_cases s <;> simp [h]

/-- Settles O51: PUSH by its bytes, the pulls by the beat offered, POLL by the value read. -/
theorem hostOperations : Obligations.HostOperations := by
  refine ⟨fun _ _ => rfl, fun _ _ _ _ => rfl, fun s b hb => ⟨?_, ?_⟩, fun s hb => ⟨?_, ?_⟩,
    fun off mask val s haligned hwindow =>
      hostOp_poll_of_admitted (accessRefusal_of_aligned_word haligned hwindow) mask val s⟩
  · rw [hostOp, hostPull, hb]
  · rw [hostOp, hostPullAll, hb, ← outTransfer_prog s]
    rfl
  · rw [hostOp, hostPull, hb]
    rfl
  · rw [hostOp, hostPullAll, hb]
    rfl

/-! ### The command in progress -/

theorem SameCommand.refl (s : State) : SameCommand s s := ⟨rfl, rfl, rfl, rfl, rfl, rfl, rfl, rfl⟩

theorem SameCommand.symm {s t : State} (h : SameCommand s t) : SameCommand t s :=
  ⟨h.phase.symm, h.lat.symm, h.inbuf.symm, h.outq.symm, h.done.symm, h.err.symm, h.errCode.symm, h.units.symm⟩

theorem SameCommand.trans {s t u : State} (h : SameCommand s t) (h' : SameCommand t u) : SameCommand s u :=
  ⟨h'.phase.trans h.phase, h'.lat.trans h.lat, h'.inbuf.trans h.inbuf, h'.outq.trans h.outq,
    h'.done.trans h.done, h'.err.trans h.err, h'.errCode.trans h.errCode, h'.units.trans h.units⟩

theorem sameCommand_popTurn (ts : List Turn) (s : State) : SameCommand s (popTurn ts s) :=
  ⟨rfl, rfl, rfl, rfl, rfl, rfl, rfl, rfl⟩

theorem sameCommand_popOp (p : List HostOp) (s : State) : SameCommand s (popOp p s) :=
  ⟨rfl, rfl, rfl, rfl, rfl, rfl, rfl, rfl⟩

theorem sameCommand_again (op : HostOp) (s : State) : SameCommand s (again op s) :=
  ⟨rfl, rfl, rfl, rfl, rfl, rfl, rfl, rfl⟩

theorem sameCommand_recordRead (off : Nat) (s : State) : SameCommand s (recordRead off s) :=
  ⟨rfl, rfl, rfl, rfl, rfl, rfl, rfl, rfl⟩

theorem sameCommand_offer (b : Byte) (s : State) : SameCommand s (offer b s) :=
  ⟨rfl, rfl, rfl, rfl, rfl, rfl, rfl, rfl⟩

/-! ### The host's operations on a busy block -/

/-- The byte the host offers at its turn of the operation (log 3). -/
def offeredBy (op : HostOp) : List Byte :=
  match op with
  | .push (b :: _) => [b]
  | _ => []

/-- The block once the OUT transfer of the operation, if it makes one, is done (log 3). -/
def afterPull (op : HostOp) (s : State) : State :=
  match op with
  | .pull => outTransfer s
  | .pullAll => outTransfer s
  | _ => s

/-- From `s` to `t` the host's operation did to a running command what its OUT transfer does, and offered its
byte, and no more. -/
structure RunsOp (op : HostOp) (s t : State) : Prop where
  command : SameCommand (afterPull op s) t
  hostIn  : t.hostIn = s.hostIn ++ offeredBy op
  hostOut : t.hostOut = (afterPull op s).hostOut

/-- A write of a register, CMD included, does nothing to a running command (40_command_interface.md R129, R130). -/
theorem regWrite_of_busy {off : Nat} {v : Word} {s t : State} (hbusy : s.phase ≠ .idle)
    (h : regWrite off v s = .next t) : SameCommand s t ∧ SameStreams s t := by
  have same : SameCommand s s ∧ SameStreams s s := ⟨.refl s, rfl, rfl, rfl⟩
  obtain rfl | ⟨-, i, -, hexec⟩ | ⟨-, -, rfl⟩ | ⟨-, rfl⟩ | ⟨-, rfl⟩ | ⟨-, rfl⟩ | ⟨-, rfl⟩ | ⟨-, rfl⟩ :=
    regWrite_cases h
  · exact same
  · rw [exec_of_busy hbusy] at hexec
    obtain rfl := Host.Outcome.next.inj hexec
    exact same
  · rwa [illegalCommand, whenIdle_of_busy hbusy]
  all_goals exact ⟨⟨rfl, rfl, rfl, rfl, rfl, rfl, rfl, rfl⟩, rfl, rfl, rfl⟩

theorem RunsOp.of_silent {op : HostOp} {s t : State} (hpull : afterPull op s = s) (hoffer : offeredBy op = [])
    (hcommand : SameCommand s t) (hin : t.hostIn = s.hostIn) (hout : t.hostOut = s.hostOut) : RunsOp op s t where
  command := by rwa [hpull]
  hostIn := by rw [hin, hoffer, List.append_nil]
  hostOut := by rw [hout, hpull]

theorem RunsOp.of_pull {op op' : HostOp} {s t : State} (hpull : afterPull op s = outTransfer s)
    (hoffer : offeredBy op = []) (ht : t = outTransfer s ∨ t = again op' (outTransfer s)) : RunsOp op s t := by
  obtain ⟨-, -, hin⟩ := outTransfer_keeps s
  have hin' : (outTransfer s).hostIn = s.hostIn ++ offeredBy op := by rw [hin, hoffer, List.append_nil]
  obtain rfl | rfl := ht
  · exact ⟨hpull ▸ .refl _, hin', by rw [hpull]⟩
  · exact ⟨hpull ▸ sameCommand_again _ _, hin', by rw [hpull, again_hostOut]⟩

/-- PULL is one OUT transfer, also where none is enabled, and stays in the program until it took a beat. -/
theorem hostPull_eq (s : State) :
    hostPull s = outTransfer s ∨ hostPull s = again .pull (outTransfer s) := by
  cases hb : offeredBeat s with
  | some b => exact .inl (by rw [hostPull, hb])
  | none => exact .inr (by rw [hostPull, hb, outTransfer_of_no_beat hb])

/-- PULLALL is one OUT transfer, also where none is enabled, and stays in the program until eom. -/
theorem hostPullAll_eq (s : State) :
    hostPullAll s = outTransfer s ∨ hostPullAll s = again .pullAll (outTransfer s) := by
  cases hb : offeredBeat s with
  | some b => cases heom : b.eom <;> simp [hostPullAll, hb, heom]
  | none => exact .inr (by rw [hostPullAll, hb, outTransfer_of_no_beat hb])

theorem hostPush_runsOp (bytes : List Byte) (s : State) : RunsOp (.push bytes) s (hostPush bytes s) :=
  match bytes with
  | [] => .of_silent rfl rfl (.refl s) rfl rfl
  | [b] => ⟨sameCommand_offer b s, rfl, rfl⟩
  | b :: _ :: _ => ⟨(sameCommand_offer b s).trans (sameCommand_again _ _), rfl, rfl⟩

theorem hostOp_of_busy {op : HostOp} {s t : State} (hbusy : s.phase ≠ .idle) (h : hostOp op s = .next t) :
    RunsOp op s t := by
  cases op with
  | wr w off v =>
    obtain ⟨hcommand, hstreams⟩ := regWrite_of_busy hbusy (regWrite_of_hostOp_wr h)
    exact .of_silent rfl rfl hcommand hstreams.hostIn hstreams.hostOut
  | rd w off =>
    obtain rfl := eq_recordRead_of_hostOp_rd h
    exact .of_silent rfl rfl (sameCommand_recordRead off s) rfl rfl
  | poll off mask val =>
    obtain rfl | rfl := eq_recordRead_of_hostOp_poll h
    · exact .of_silent rfl rfl (sameCommand_recordRead off s) rfl rfl
    · exact .of_silent rfl rfl ((sameCommand_recordRead off s).trans (sameCommand_again _ _)) rfl rfl
  | push bytes =>
    obtain rfl := Host.Outcome.next.inj h
    exact hostPush_runsOp bytes s
  | pull =>
    obtain rfl := Host.Outcome.next.inj h
    exact .of_pull rfl rfl (hostPull_eq s)
  | pullAll =>
    obtain rfl := Host.Outcome.next.inj h
    exact .of_pull rfl rfl (hostPullAll_eq s)

/-! ### Steps of a busy block -/

theorem afterPull_keeps (op : HostOp) (s : State) :
    (afterPull op s).lat = s.lat ∧ (afterPull op s).units = s.units := by
  obtain ⟨hlat, hunits, -⟩ := outTransfer_keeps s
  cases op with
  | pull => exact ⟨hlat, hunits⟩
  | pullAll => exact ⟨hlat, hunits⟩
  | _ => exact ⟨rfl, rfl⟩

/-- Settles O57: a busy block takes a beat or a byte, or is left alone, and none of these writes lat or UNITS. -/
theorem latAndUnitsKeptWhileBusy : Obligations.LatAndUnitsKeptWhileBusy := by
  intro s t hbusy hreset hstep
  obtain ⟨-, rfl⟩ | ⟨ts, -, rfl⟩ | ⟨ts, hturns, -⟩ | ⟨ts, -, -, rfl⟩ | ⟨ts, op, rest, -, -, hop⟩ :=
    step_cases hstep
  · exact ⟨rfl, rfl⟩
  · obtain ⟨hlat, hunits, -⟩ := inTransfer_keeps (popTurn ts s)
    exact ⟨hlat, hunits⟩
  · exact absurd (by rw [hturns, List.head?_cons]) hreset
  · exact ⟨rfl, rfl⟩
  · have hruns := hostOp_of_busy (s := popOp rest (popTurn ts s)) hbusy hop
    obtain ⟨hlat, hunits⟩ := afterPull_keeps op (popOp rest (popTurn ts s))
    exact ⟨hruns.command.lat.trans hlat, hruns.command.units.trans hunits⟩

theorem afterPull_of_load {s : State} (op : HostOp) (hload : s.phase = .load) : afterPull op s = s := by
  have hout : outTransfer s = s := outTransfer_of_not_emit (by simp [hload])
  cases op with
  | pull => exact hout
  | pullAll => exact hout
  | _ => rfl

theorem afterPull_of_not_pull {op : HostOp} (hpull : op ≠ .pull) (hpullAll : op ≠ .pullAll) (s : State) :
    afterPull op s = s := by
  cases op with
  | pull => exact absurd rfl hpull
  | pullAll => exact absurd rfl hpullAll
  | _ => rfl

/-- Where neither transfer is enabled, no step but reset does anything to the command in progress. -/
theorem step_of_not_enabled {s t : State} (hbusy : s.phase ≠ .idle) (hreset : s.turns.head? ≠ some .reset)
    (hinput : ∀ ts, inTransfer (popTurn ts s) = popTurn ts s)
    (hhost : ∀ ts op rest, s.turns = .host :: ts → s.prog = op :: rest →
      afterPull op (popOp rest (popTurn ts s)) = popOp rest (popTurn ts s))
    (hstep : step s = .next t) : SameCommand s t := by
  obtain ⟨-, rfl⟩ | ⟨ts, -, rfl⟩ | ⟨ts, hturns, -⟩ | ⟨ts, -, -, rfl⟩ | ⟨ts, op, rest, hturns, hprog, hop⟩ :=
    step_cases hstep
  · exact .refl _
  · rw [hinput]
    exact sameCommand_popTurn ts s
  · exact absurd (by rw [hturns, List.head?_cons]) hreset
  · exact sameCommand_popTurn ts s
  · have hruns := hostOp_of_busy (s := popOp rest (popTurn ts s)) hbusy hop
    have hcommand := hruns.command
    rw [hhost ts op rest hturns hprog] at hcommand
    exact ((sameCommand_popTurn ts s).trans (sameCommand_popOp rest _)).trans hcommand

theorem step_of_starved {s t : State} (hload : s.phase = .load) (hin : s.hostIn = [])
    (hreset : s.turns.head? ≠ some .reset) (hstep : step s = .next t) : SameCommand s t :=
  step_of_not_enabled (by simp [hload]) hreset (fun _ => inTransfer_of_not_enabled (.inr hin))
    (fun _ op _ _ _ => afterPull_of_load op hload) hstep

theorem step_of_undrained {s t : State} (hemit : s.phase = .emit) (hreset : s.turns.head? ≠ some .reset)
    (hpull : s.turns.head? = some .host → s.prog.head? ≠ some .pull ∧ s.prog.head? ≠ some .pullAll)
    (hstep : step s = .next t) : SameCommand s t := by
  refine step_of_not_enabled (by simp [hemit]) hreset
    (fun _ => inTransfer_of_not_load (by simp [hemit])) (fun ts op rest hturns hprog => ?_) hstep
  simp only [hturns, hprog, List.head?_cons, ne_eq, Option.some.injEq, forall_const] at hpull
  obtain ⟨hnotPull, hnotPullAll⟩ := hpull
  exact afterPull_of_not_pull hnotPull hnotPullAll _

/-- Settles O59: in both phases the command in progress stays as it is. -/
theorem hangsWithoutTheHost : Obligations.HangsWithoutTheHost := by
  constructor
  · intro s t hload hin hreset hstep
    have hsame := step_of_starved hload hin hreset hstep
    exact ⟨hsame.phase.trans hload, hsame.inbuf, hsame.lat⟩
  · intro s t hemit hreset hpull hstep
    have hsame := step_of_undrained hemit hreset hpull hstep
    exact ⟨hsame.phase.trans hemit, hsame.outq⟩

/-! ### Two blocks that run the same command -/

/-- From `s₁` and `s₂` two blocks came to `t₁` and `t₂`, which agree on the command in progress and on the
bytes offered, and delivered the same beats on the way. -/
structure DeliverAlike (s₁ s₂ t₁ t₂ : State) : Prop where
  command : SameCommand t₁ t₂
  hostIn  : t₂.hostIn = t₁.hostIn
  beats   : ∃ new, t₁.hostOut = s₁.hostOut ++ new ∧ t₂.hostOut = s₂.hostOut ++ new

theorem DeliverAlike.of_no_beat {s₁ s₂ t₁ t₂ : State} (hcommand : SameCommand t₁ t₂)
    (hin : t₂.hostIn = t₁.hostIn) (hout₁ : t₁.hostOut = s₁.hostOut) (hout₂ : t₂.hostOut = s₂.hostOut) :
    DeliverAlike s₁ s₂ t₁ t₂ :=
  ⟨hcommand, hin, [], by rw [hout₁, List.append_nil], by rw [hout₂, List.append_nil]⟩

section
variable {s₁ s₂ : State} (hsame : SameCommand s₁ s₂) (hin : s₂.hostIn = s₁.hostIn)
include hsame hin

theorem inTransfer_deliverAlike : DeliverAlike s₁ s₂ (inTransfer s₁) (inTransfer s₂) := by
  obtain ⟨-, -, hout₁⟩ := inTransfer_keeps s₁
  obtain ⟨-, -, hout₂⟩ := inTransfer_keeps s₂
  suffices h : SameCommand (inTransfer s₁) (inTransfer s₂) ∧ (inTransfer s₂).hostIn = (inTransfer s₁).hostIn by
    obtain ⟨hcommand, hin'⟩ := h
    exact .of_no_beat hcommand hin' hout₁ hout₂
  by_cases hoff : s₁.phase ≠ .load ∨ s₁.hostIn = []
  · rw [inTransfer_of_not_enabled hoff, inTransfer_of_not_enabled (by rwa [hsame.phase, hin])]
    exact ⟨hsame, hin⟩
  · obtain ⟨hload, hne⟩ := not_or.1 hoff
    obtain ⟨b, rest, hin₁⟩ := List.exists_cons_of_ne_nil hne
    have hload₁ : s₁.phase = .load := not_not.1 hload
    have htaken : SameCommand (takeByte b rest s₁) (takeByte b rest s₂) :=
      ⟨hsame.phase, hsame.lat, congrArg (· ++ [b]) hsame.inbuf, hsame.outq, hsame.done, hsame.err,
        hsame.errCode, hsame.units⟩
    rw [inTransfer_of_load hload₁ hin₁, inTransfer_of_load (hsame.phase.trans hload₁) (hin.trans hin₁),
      hsame.inbuf, hsame.lat]
    split_ifs
    · refine ⟨⟨rfl, htaken.lat, htaken.inbuf, ?_, htaken.done, htaken.err, htaken.errCode, htaken.units⟩, rfl⟩
      rw [finishLoad_outq, finishLoad_outq, htaken.lat, htaken.inbuf]
    · exact ⟨htaken, rfl⟩

theorem outTransfer_deliverAlike : DeliverAlike s₁ s₂ (outTransfer s₁) (outTransfer s₂) := by
  have hoffered : offeredBeat s₂ = offeredBeat s₁ := by simp only [offeredBeat, hsame.phase, hsame.outq]
  cases hb : offeredBeat s₁ with
  | none =>
    rw [outTransfer_of_no_beat hb, outTransfer_of_no_beat (hoffered.trans hb)]
    exact .of_no_beat hsame hin rfl rfl
  | some b =>
    obtain ⟨hemit, rest, hq⟩ := (offeredBeat_eq_some_iff s₁ b).1 hb
    rw [outTransfer_of_emit hemit hq, outTransfer_of_emit (hsame.phase.trans hemit) (hsame.outq.trans hq)]
    split_ifs
    · exact ⟨⟨rfl, hsame.lat, rfl, rfl, rfl, hsame.err, hsame.errCode, hsame.units⟩, hin, [b], rfl, rfl⟩
    · exact ⟨⟨hsame.phase, hsame.lat, hsame.inbuf, rfl, hsame.done, hsame.err, hsame.errCode, hsame.units⟩,
        hin, [b], rfl, rfl⟩

theorem afterPull_deliverAlike (op : HostOp) : DeliverAlike s₁ s₂ (afterPull op s₁) (afterPull op s₂) := by
  cases op with
  | pull => exact outTransfer_deliverAlike hsame hin
  | pullAll => exact outTransfer_deliverAlike hsame hin
  | _ => exact .of_no_beat hsame hin rfl rfl

theorem hostOp_deliverAlike {op : HostOp} {t₁ t₂ : State} (hbusy : s₁.phase ≠ .idle)
    (h₁ : hostOp op s₁ = .next t₁) (h₂ : hostOp op s₂ = .next t₂) : DeliverAlike s₁ s₂ t₁ t₂ := by
  have hruns₁ := hostOp_of_busy hbusy h₁
  have hruns₂ := hostOp_of_busy (hsame.phase.symm ▸ hbusy) h₂
  obtain ⟨hcommand, -, hbeats⟩ := afterPull_deliverAlike hsame hin op
  refine ⟨(hruns₁.command.symm.trans hcommand).trans hruns₂.command, ?_, ?_⟩
  · rw [hruns₁.hostIn, hruns₂.hostIn, hin]
  · rwa [hruns₁.hostOut, hruns₂.hostOut]

end

theorem step_of_rest {s : State} (h : s.turns = []) : step s = .next s := by simp [step, takeTurn, h]

theorem step_of_host_done {s : State} {ts : List Turn} (h : s.turns = .host :: ts) (hp : s.prog = []) :
    step s = .next (popTurn ts s) := by simp [step, takeTurn, h, runTurn, hostTurn, hp]

/-- Settles O58: both blocks make the same kind of step, and each kind reads the command in progress and the
bytes offered alone. -/
theorem runningCommandIgnoresTheRest : Obligations.RunningCommandIgnoresTheRest := by
  intro s₁ s₂ t₁ t₂ hbusy hsame hin hturns hprog hreset h₁ h₂
  suffices h : DeliverAlike s₁ s₂ t₁ t₂ from ⟨h.command, h.hostIn, h.beats⟩
  have hpop : ∀ ts, SameCommand (popTurn ts s₁) (popTurn ts s₂) := fun ts =>
    ((sameCommand_popTurn ts s₁).symm.trans hsame).trans (sameCommand_popTurn ts s₂)
  obtain ⟨hrest, rfl⟩ | ⟨ts, hinput, rfl⟩ | ⟨ts, hres, -⟩ | ⟨ts, hhost, hdone, rfl⟩ |
    ⟨ts, op, rest, hhost, hnext, hop⟩ := step_cases h₁
  · rw [step_of_rest (hturns.trans hrest)] at h₂
    obtain rfl := Host.Outcome.next.inj h₂
    exact .of_no_beat hsame hin rfl rfl
  · rw [step_of_input (hturns.trans hinput)] at h₂
    obtain rfl := Host.Outcome.next.inj h₂
    obtain ⟨hcommand, hin', hbeats⟩ := inTransfer_deliverAlike (hpop ts) hin
    exact ⟨hcommand, hin', hbeats⟩
  · exact absurd (by rw [hres, List.head?_cons]) hreset
  · rw [step_of_host_done (hturns.trans hhost) (hprog.trans hdone)] at h₂
    obtain rfl := Host.Outcome.next.inj h₂
    exact .of_no_beat (hpop ts) hin rfl rfl
  · rw [step_of_host (hturns.trans hhost) (hprog.trans hnext)] at h₂
    have hsame' : SameCommand (popOp rest (popTurn ts s₁)) (popOp rest (popTurn ts s₂)) :=
      ((sameCommand_popOp rest _).symm.trans (hpop ts)).trans (sameCommand_popOp rest _)
    obtain ⟨hcommand, hin', hbeats⟩ := hostOp_deliverAlike hsame' hin hbusy hop h₂
    exact ⟨hcommand, hin', hbeats⟩

end Sys2Proof.Machine
end

section
/-! PROOFS. The invariant of every reachable state (10_state.md R26, R32, R35 to R38, R41,
40_command_interface.md R132, R135). -/

namespace Sys2Proof.Machine

/-! ### The invariant of an idle and of a busy block -/

/-- What an accepted command reports and has latched: the part of the invariant that no later step of the
command touches. -/
structure Accepted (s : State) : Prop where
  done    : s.done = false
  err     : s.err = false
  errCode : s.errCode = .none
  len     : s.lat.len ≤ Config.maxLen ∧ (s.lat.op = .buildFrame → s.lat.len ≤ segMax)
  units   : s.units.toNat = unitCount s.lat.op s.lat.len s.lat.legacy

theorem Inv.accepted {s : State} (h : Inv s) (hbusy : s.phase ≠ .idle) : Accepted s := by
  obtain ⟨hdone, herr⟩ := h.busy_flags hbusy
  exact ⟨hdone, herr, h.err_code.1 herr, h.busy_len hbusy, h.busy_units hbusy⟩

theorem inv_of_idle {s : State} (hidle : s.phase = .idle) (hinbuf : s.inbuf = []) (houtq : s.outq = [])
    (hflags : ¬(s.done = true ∧ s.err = true)) (hcode : s.err = false ↔ s.errCode = .none)
    (hunits : s.err = true → s.units = 0#32) : Inv s where
  idle_empty := fun _ => ⟨hinbuf, houtq⟩
  load_short := fun h => by simp [hidle] at h
  emit_rest := fun h => by simp [hidle] at h
  busy_flags := fun h => absurd hidle h
  not_done_and_err := hflags
  err_code := hcode
  busy_len := fun h => absurd hidle h
  busy_units := fun h => absurd hidle h
  err_units := hunits

section
variable {s : State} (h : Accepted s)
include h

theorem Accepted.inv_of_busy (hbusy : s.phase ≠ .idle)
    (hload : s.phase = .load → s.inbuf.length < s.lat.len ∧ s.outq = [])
    (hemit : s.phase = .emit →
      s.outq ≠ [] ∧ s.inbuf.length = s.lat.len ∧ s.outq <:+ beats (result s.lat s.inbuf)) : Inv s where
  idle_empty := fun hidle => absurd hidle hbusy
  load_short := hload
  emit_rest := hemit
  busy_flags := fun _ => ⟨h.done, h.err⟩
  not_done_and_err := by simp [h.done]
  err_code := by simp [h.err, h.errCode]
  busy_len := fun _ => h.len
  busy_units := fun _ => h.units
  err_units := by simp [h.err]

theorem Accepted.inv_of_load (hload : s.phase = .load) (hshort : s.inbuf.length < s.lat.len)
    (houtq : s.outq = []) : Inv s :=
  h.inv_of_busy (by simp [hload]) (fun _ => ⟨hshort, houtq⟩) (by simp [hload])

theorem Accepted.inv_of_emit (hemit : s.phase = .emit) (hne : s.outq ≠ [])
    (hfull : s.inbuf.length = s.lat.len) (htail : s.outq <:+ beats (result s.lat s.inbuf)) : Inv s :=
  h.inv_of_busy (by simp [hemit]) (by simp [hemit]) (fun _ => ⟨hne, hfull, htail⟩)

/-- With LEN bytes in the buffer the output is computed whole (40_command_interface.md R125). -/
theorem Accepted.inv_finishLoad (hfull : s.inbuf.length = s.lat.len) : Inv (finishLoad s) :=
  have haccepted : Accepted (finishLoad s) := ⟨h.done, h.err, h.errCode, h.len, h.units⟩
  haccepted.inv_of_emit rfl (output_ne_nil _ _) hfull List.suffix_rfl

end

/-- The invariant reads the command in progress and its report alone. -/
theorem Inv.congr {s t : State} (h : SameCommand s t) (hinv : Inv s) : Inv t where
  idle_empty := by rw [h.phase, h.inbuf, h.outq]; exact hinv.idle_empty
  load_short := by rw [h.phase, h.inbuf, h.lat, h.outq]; exact hinv.load_short
  emit_rest := by rw [h.phase, h.outq, h.inbuf, h.lat]; exact hinv.emit_rest
  busy_flags := by rw [h.phase, h.done, h.err]; exact hinv.busy_flags
  not_done_and_err := by rw [h.done, h.err]; exact hinv.not_done_and_err
  err_code := by rw [h.err, h.errCode]; exact hinv.err_code
  busy_len := by rw [h.phase, h.lat]; exact hinv.busy_len
  busy_units := by rw [h.phase, h.units, h.lat]; exact hinv.busy_units
  err_units := by rw [h.err, h.units]; exact hinv.err_units

/-- Settles O52: a block after reset is idle, empty and reports nothing. -/
theorem invariantHoldsAtReset : Obligations.InvariantHoldsAtReset :=
  inv_of_idle rfl rfl rfl (by decide) (by decide) (by decide)

theorem inv_blockReset (s : State) : Inv (blockReset s) :=
  inv_of_idle rfl rfl rfl (by simp) (by simp) (by simp)

/-! ### Evaluating a command word -/

theorem inv_reject {s : State} {c : ErrCode} (hidle : s.phase = .idle) (hc : c ≠ .none) (h : Inv s) :
    Inv (reject c s) := by
  obtain ⟨hinbuf, houtq⟩ := h.idle_empty hidle
  exact inv_of_idle hidle hinbuf houtq (by simp) (by simp [hc]) (fun _ => rfl)

/-- A unit count of a LEN fits the 32 bits of UNITS (10_state.md R32). -/
theorem unitCount_lt_two_pow_32 {L : Nat} (h : L < 2 ^ 32) (i : Instr) (legacy : Bool) :
    unitCount i L legacy < 2 ^ 32 := by
  cases i with
  | buildFrames => exact segCount_lt_two_pow_32 legacy h
  | fragment => exact segCount_lt_two_pow_32 legacy h
  | buildFrame => exact (by decide : 1 < 2 ^ 32)
  | checksum => exact (by decide : 1 < 2 ^ 32)

theorem accepted_latchCommand {i : Instr} {s : State} (h : firstError (checksOf i s) = none) :
    Accepted (latchCommand i s) := by
  obtain ⟨hcap, hseg, -⟩ := checksOf_passed h
  exact ⟨rfl, rfl, rfl, ⟨hcap, hseg⟩, Nat.mod_eq_of_lt (unitCount_lt_two_pow_32 s.len.isLt i s.legacySeg)⟩

theorem inv_accept {i : Instr} {s : State} (hidle : s.phase = .idle) (hpass : firstError (checksOf i s) = none)
    (h : Inv s) : Inv (accept i s) := by
  have hlatched := accepted_latchCommand hpass
  by_cases hzero : s.len.toNat = 0
  · rw [accept_of_len_zero hzero]
    exact hlatched.inv_finishLoad hzero.symm
  · obtain ⟨-, houtq⟩ := h.idle_empty hidle
    have haccepted : Accepted (awaitInput (latchCommand i s)) :=
      ⟨hlatched.done, hlatched.err, hlatched.errCode, hlatched.len, hlatched.units⟩
    rw [accept_of_len_pos hzero]
    exact haccepted.inv_of_load rfl (Nat.pos_of_ne_zero hzero) houtq

theorem inv_exec {i : Instr} {s t : State} (h : exec i s = .next t) (hinv : Inv s) : Inv t := by
  obtain ⟨-, rfl⟩ | ⟨hidle, c, hc, -, rfl⟩ | ⟨hidle, hpass, rfl⟩ := exec_cases h
  · exact hinv
  · exact inv_reject hidle hc hinv
  · exact inv_accept hidle hpass hinv

theorem inv_illegalCommand {s : State} (h : Inv s) : Inv (illegalCommand s) := by
  by_cases hidle : s.phase = .idle
  · rw [illegalCommand_of_idle hidle]
    exact inv_reject hidle (by decide) h
  · rwa [illegalCommand, whenIdle_of_busy hidle]

/-! ### Transfers -/

theorem inv_inTransfer {s : State} (h : Inv s) : Inv (inTransfer s) := by
  obtain ⟨-, hsame⟩ | ⟨b, rest, hload, -, hcases⟩ := inTransfer_cases s
  · rwa [hsame]
  · have hbefore := h.accepted (by simp [hload])
    have haccepted : Accepted (takeByte b rest s) :=
      ⟨hbefore.done, hbefore.err, hbefore.errCode, hbefore.len, hbefore.units⟩
    have hlength : (takeByte b rest s).inbuf.length = s.inbuf.length + 1 := by simp
    obtain ⟨hshort, houtq⟩ := h.load_short hload
    obtain ⟨hlast, heq⟩ | ⟨hmore, heq⟩ := hcases
    · rw [heq]
      exact haccepted.inv_finishLoad (hlength.trans hlast)
    · rw [heq]
      refine haccepted.inv_of_load hload ?_ houtq
      rw [hlength, takeByte_lat]
      omega

theorem inv_outTransfer {s : State} (h : Inv s) : Inv (outTransfer s) := by
  obtain ⟨-, hsame⟩ | ⟨b, hemit, -, heq⟩ | ⟨b, b', rest, hemit, hq, heq⟩ := outTransfer_cases s
  · rwa [hsame]
  · have hbefore := h.accepted (by simp [hemit])
    rw [heq]
    exact inv_of_idle rfl rfl rfl (by simp [hbefore.err]) h.err_code h.err_units
  · have hbefore := h.accepted (by simp [hemit])
    have haccepted : Accepted (deliverBeat b (b' :: rest) s) :=
      ⟨hbefore.done, hbefore.err, hbefore.errCode, hbefore.len, hbefore.units⟩
    obtain ⟨-, hfull, htail⟩ := h.emit_rest hemit
    rw [hq] at htail
    rw [heq]
    exact haccepted.inv_of_emit hemit (List.cons_ne_nil _ _) hfull ((List.suffix_cons b _).trans htail)

/-! ### One step -/

theorem inv_hostOp {op : HostOp} {s t : State} (h : hostOp op s = .next t) (hinv : Inv s) : Inv t := by
  obtain ⟨hblock, -⟩ | ⟨v, i, -, -, hexec⟩ | ⟨v, e, -, -, rfl⟩ | ⟨w, off, v, -, hcommand, -⟩ |
    ⟨b, t', -, -, rfl, rfl | rfl⟩ := hostOp_cases h
  · exact hinv.congr hblock.command
  · exact inv_exec hexec hinv
  · exact inv_illegalCommand hinv
  · exact hinv.congr hcommand
  · exact inv_outTransfer hinv
  · exact (inv_outTransfer hinv).congr (sameCommand_again _ _)

/-- Settles O53: the order of the steps and the host's program are no part of the invariant, and each of the
steps of R120 keeps it. -/
theorem everyStepKeepsTheInvariant : Obligations.EveryStepKeepsTheInvariant := by
  intro s t hinv hstep
  have hpop : ∀ ts, Inv (popTurn ts s) := fun ts => hinv.congr (sameCommand_popTurn ts s)
  obtain ⟨-, rfl⟩ | ⟨ts, -, rfl⟩ | ⟨ts, -, rfl⟩ | ⟨ts, -, -, rfl⟩ | ⟨ts, op, rest, -, -, hop⟩ :=
    step_cases hstep
  · exact hinv
  · exact inv_inTransfer (hpop ts)
  · exact inv_blockReset _
  · exact hpop ts
  · exact inv_hostOp hop ((hpop ts).congr (sameCommand_popOp rest _))

/-- Settles O54: a block still busy after the step reports no error by `Inv`, and one that became idle was
reset or completed its command. -/
theorem noErrorAfterAcceptance : Obligations.NoErrorAfterAcceptance := by
  intro s t hinv hbusy hstep
  have hinv' := everyStepKeepsTheInvariant s t hinv hstep
  suffices herr : t.err = false from ⟨herr, hinv'.err_code.1 herr⟩
  by_cases hidle : t.phase = .idle
  · obtain hreset | ⟨-, b, -, -, hdone⟩ := onlyCompletionOrResetEndsACommand s t hbusy hstep hidle
    · obtain ⟨ts, hturns⟩ := List.head?_eq_some_iff.1 hreset
      rw [step_of_reset hturns] at hstep
      obtain rfl := Host.Outcome.next.inj hstep
      rfl
    · exact Bool.eq_false_iff.2 fun htrue => hinv'.not_done_and_err ⟨hdone, htrue⟩
  · exact (hinv'.accepted hidle).err

end Sys2Proof.Machine
end

section
/-! PROOFS. The four commands one by one, and the words a step decodes (41_fragmenter.md R156,
42_frame_builder.md R186, 43_checksum.md R213, 44_build_frames.md R231, 40_command_interface.md R120). -/

namespace Sys2Proof.Machine

/-- Settles O1: words written out, each decoded by computation. -/
theorem commandWordsDecode : Obligations.CommandWordsDecode := by
  refine ⟨rfl, rfl, rfl, rfl, rfl, ?noSuchOp, ?reservedBits⟩
  case noSuchOp => decide
  case reservedBits => decide

/-- Settles O3, for every command at once. -/
theorem decodeOfEncode : Obligations.DecodeOfEncode := fun i _ => decode_encode i

/-! ### The four commands -/

/-- Settles O19: an ignored command changes nothing, a rejection writes the report, an acceptance the report and
the command in progress. -/
theorem commandsLeaveParametersAndStreams : Obligations.CommandsLeaveParametersAndStreams := by
  intro i s t hexec
  obtain ⟨-, rfl⟩ | ⟨-, c, -, -, rfl⟩ | ⟨-, -, rfl⟩ := exec_cases hexec
  · exact ⟨⟨rfl, rfl, rfl, rfl, rfl⟩, ⟨rfl, rfl, rfl⟩, rfl, rfl, rfl⟩
  · exact ⟨⟨rfl, rfl, rfl, rfl, rfl⟩, ⟨rfl, rfl, rfl⟩, rfl, rfl, rfl⟩
  · obtain ⟨-, -, -, -, -, -, -, hlegacy, hctrl, hdst, hsrc, hlen, hin, hout, hreads, hprog, hturns, hcount⟩ :=
      accept_fields i s
    exact ⟨⟨hlegacy, hctrl, hdst, hsrc, hlen⟩, ⟨hin, hout, hreads⟩, hprog, hturns, hcount⟩

/-- Settles O14: the acceptance of `acceptanceLatchesOperands`; BUILD_FRAMES has no bound of its own on LEN. -/
theorem buildFramesIsAccepted : Obligations.BuildFramesIsAccepted := by
  intro s hidle hdst hsrc hcap
  obtain ⟨-, haccept⟩ := acceptanceLatchesOperands
  exact haccept .buildFrames s hidle (fun _ => ⟨hdst, hsrc⟩) (by simp) hcap

/-- Settles O15: FRAGMENT does not check the addresses, and the empty input is one empty unit in both modes. -/
theorem fragmentIsAccepted : Obligations.FragmentIsAccepted := by
  intro s hidle hcap t
  obtain ⟨-, haccept⟩ := acceptanceLatchesOperands
  refine (haccept .fragment s hidle (by simp) (by simp) hcap).trans ?_
  have hempty : beats (result t.lat []) = [emptyUnitBeat true] := beats_result_of_empty_fragment rfl
  have hfinish : finishLoad t = { t with outq := [emptyUnitBeat true], phase := .emit } := by
    rw [← hempty]
    rfl
  exact congrArg (fun u => Host.Outcome.next (if s.len.toNat = 0 then u else { t with phase := .load })) hfinish

/-- Settles O16: 250 bytes are within MAX_LEN. -/
theorem buildFrameIsAccepted : Obligations.BuildFrameIsAccepted := by
  intro s hidle hdst hsrc hlen
  obtain ⟨-, haccept⟩ := acceptanceLatchesOperands
  exact haccept .buildFrame s hidle (fun _ => ⟨hdst, hsrc⟩) (fun _ => hlen) (hlen.trans maxLen_ge)

/-- Settles O17: CHECKSUM checks neither the addresses nor a segment length. -/
theorem checksumIsAccepted : Obligations.ChecksumIsAccepted := by
  intro s hidle hcap
  obtain ⟨-, haccept⟩ := acceptanceLatchesOperands
  exact haccept .checksum s hidle (by simp) (by simp) hcap

/-- Settles O48: the reset values of the other parameters pass every test. -/
theorem defaultsStraightAfterReset : Obligations.DefaultsStraightAfterReset := by
  intro n hn
  have hpass : firstError (checksOf .buildFrames (writeLen n State.reset)) = none :=
    firstError_checksOf_eq_none (by simp [State.reset]) (by simp) hn
  obtain ⟨hlat, herr, -, -, -, -, hbusy, -⟩ := accept_fields .buildFrames (writeLen n State.reset)
  refine ⟨writeLen n State.reset, accept .buildFrames (writeLen n State.reset), rfl, ?_, hbusy, herr, hlat⟩
  rw [regWrite_cmd, writeCmd_of_decode_ok (i := .buildFrames) rfl, exec_eq_accept rfl hpass]

/-! ### One step -/

theorem step_of_cmd_write {s : State} {ts : List Turn} {p : List HostOp} {v : Word} {i : Instr}
    (hturns : s.turns = .host :: ts) (hprog : s.prog = .wr .word 0x00 v :: p) (hv : decode v = .ok i) :
    step s = exec i (popOp p (popTurn ts s)) := by
  have hadmit : accessRefusal .word 0x00 = none := rfl
  rw [step_of_host hturns hprog, hostOp_wr_of_admitted hadmit, regWrite_cmd, writeCmd_of_decode_ok hv]

/-- A table word that decodes is within 32 bits, and its CMD word decodes the same (log 13). -/
theorem decode_of_decodeTableWord {nbits w : Nat} {i : Instr} (h : decodeTableWord nbits w = some i) :
    decode (tableWord nbits w) = .ok i := by
  unfold decodeTableWord at h
  split_ifs at h
  cases hd : decode (tableWord nbits w) with
  | ok j =>
    rw [hd] at h
    rw [Option.some.inj h]
  | error e =>
    rw [hd] at h
    cases h

/-- Settles O49: `withFetchWord` places the write that `step_of_cmd_write` runs. -/
theorem stepRunsTheDecodedCommand : Obligations.StepRunsTheDecodedCommand :=
  ⟨fun _ _ _ _ _ hturns hprog hv => step_of_cmd_write hturns hprog hv,
    fun s w _ h => step_of_cmd_write (s := s.withFetchWord 32 w) rfl rfl (decode_of_decodeTableWord h)⟩

/-- Settles O50: one equation per kind of turn. -/
theorem stepTakesTheNextTurn : Obligations.StepTakesTheNextTurn :=
  ⟨fun _ _ h => step_of_input h, fun _ _ _ _ h hp => step_of_host h hp, fun _ _ h hp => step_of_host_done h hp,
    fun _ h => step_of_rest h⟩

end Sys2Proof.Machine
end

section
/-! PROOFS. The run of an accepted command from its CMD write to its last beat
(40_command_interface.md R122 to R128, R134 to R136). -/

namespace Sys2Proof.Machine

/-! ### Loading -/

/-- The block with `k` bytes more taken from IN; `ts` is the order of the steps left. -/
def takeBytes (k : Nat) (ts : List Turn) (s : State) : State :=
  { s with hostIn := s.hostIn.drop k, inbuf := s.inbuf ++ s.hostIn.take k, turns := ts }

theorem takeBytes_zero {s : State} {ts : List Turn} (h : s.turns = ts) : takeBytes 0 ts s = s := by
  simp [takeBytes, ← h]

theorem takeBytes_succ {s : State} {b : Byte} {rest : List Byte} (hin : s.hostIn = b :: rest) (k : Nat)
    (ts ts' : List Turn) : takeBytes (k + 1) ts s = takeBytes k ts (takeByte b rest (popTurn ts' s)) := by
  simp [takeBytes, takeByte, popTurn, hin]

/-- As many input turns as bytes are missing fill the buffer, by induction on their number. -/
theorem steps_load {k : Nat} {s : State} {ts : List Turn} (hload : s.phase = .load) (hpos : 0 < k)
    (hlen : s.inbuf.length + k = s.lat.len) (hin : k ≤ s.hostIn.length)
    (hturns : s.turns = List.replicate k .input ++ ts) :
    steps k s = .next (finishLoad (takeBytes k ts s)) := by
  induction k generalizing s with
  | zero => exact absurd hpos (Nat.lt_irrefl 0)
  | succ k ih =>
    obtain ⟨b, rest, hcons⟩ : ∃ b rest, s.hostIn = b :: rest :=
      List.exists_cons_of_ne_nil (List.ne_nil_of_length_pos (by omega))
    have hnext : s.turns = .input :: (List.replicate k .input ++ ts) := hturns
    rw [steps_succ k (step_of_input hnext),
      inTransfer_of_load (s := popTurn (List.replicate k Turn.input ++ ts) s) hload hcons,
      takeBytes_succ hcons k ts (List.replicate k Turn.input ++ ts), popTurn_inbuf, popTurn_lat]
    rw [hcons, List.length_cons] at hin
    split_ifs with hlast
    · obtain rfl : k = 0 := by omega
      have hrest : (takeByte b rest (popTurn (List.replicate 0 Turn.input ++ ts) s)).turns = ts := rfl
      rw [takeBytes_zero hrest, steps_zero]
    · refine ih hload (by omega) ?_ (Nat.le_of_succ_le_succ hin) rfl
      rw [takeByte_inbuf, takeByte_lat, popTurn_inbuf, popTurn_lat, List.length_append, List.length_singleton]
      omega

/-- With LEN = 0 the acceptance itself computes the output, otherwise the last of LEN input turns does. -/
theorem steps_accept {i : Instr} {s : State} {ts : List Turn} (hin : s.len.toNat ≤ s.hostIn.length)
    (hturns : s.turns = List.replicate s.len.toNat .input ++ ts) :
    steps s.len.toNat (accept i s) = .next (finishLoad (takeBytes s.len.toNat ts (latchCommand i s))) := by
  by_cases hzero : s.len.toNat = 0
  · rw [hzero] at hturns
    have hrest : (latchCommand i s).turns = ts := hturns
    rw [accept_of_len_zero hzero, hzero, steps_zero, takeBytes_zero hrest]
  · rw [accept_of_len_pos hzero]
    exact steps_load (s := awaitInput (latchCommand i s)) rfl (Nat.pos_of_ne_zero hzero) (Nat.zero_add _) hin hturns

/-! ### Emitting -/

/-- The block once the host took all its beats, before it completes the command; `p` and `ts` are the program and
the order of the steps left. -/
def takeBeats (p : List HostOp) (ts : List Turn) (s : State) : State :=
  { s with outq := [], hostOut := s.hostOut ++ s.outq, prog := p, turns := ts }

theorem takeBeats_single {s : State} {b : Beat} (hq : s.outq = [b]) (p : List HostOp) (ts : List Turn) :
    takeBeats p ts s = deliverBeat b [] (popOp p (popTurn ts s)) := by
  simp [takeBeats, deliverBeat, popOp, popTurn, hq]

theorem takeBeats_cons {s : State} {b : Beat} {rest : List Beat} (hq : s.outq = b :: rest)
    (p : List HostOp) (ts ts' : List Turn) :
    takeBeats p ts s = takeBeats p ts (again .pullAll (deliverBeat b rest (popOp p (popTurn ts' s)))) := by
  simp [takeBeats, deliverBeat, again, popOp, popTurn, hq]

theorem hostOp_pullAll_of_emit {s : State} {b : Beat} {rest : List Beat} (hemit : s.phase = .emit)
    (hq : s.outq = b :: rest) : hostOp .pullAll s =
      .next (if b.eom = true then outTransfer s else again .pullAll (outTransfer s)) := by
  have hb : offeredBeat s = some b := (offeredBeat_eq_some_iff s b).2 ⟨hemit, rest, hq⟩
  rw [hostOp, hostPullAll, hb]

/-- PULLALL takes one beat a host turn and ends with the queue, when eom marks its last beat alone; by
induction on the beats left. -/
theorem steps_drain {q : List Beat} {s : State} {p : List HostOp} {ts : List Turn} (hemit : s.phase = .emit)
    (hq : s.outq = q) (hne : q ≠ []) (heom : ∀ b rest, b :: rest <:+ q → (b.eom = true ↔ rest = []))
    (hprog : s.prog = .pullAll :: p) (hturns : s.turns = List.replicate q.length .host ++ ts) :
    steps q.length s = .next (completeCommand (takeBeats p ts s)) := by
  induction q generalizing s with
  | nil => exact absurd rfl hne
  | cons b rest ih =>
    have hnext : s.turns = .host :: (List.replicate rest.length .host ++ ts) := hturns
    have hlast : b.eom = true ↔ rest = [] := heom b rest List.suffix_rfl
    have hstep := (step_of_host hnext hprog).trans (hostOp_pullAll_of_emit hemit hq)
    have htransfer := outTransfer_of_emit (s := popOp p (popTurn (List.replicate rest.length Turn.host ++ ts) s))
      hemit hq
    rw [List.length_cons, steps_succ _ hstep, htransfer]
    simp only [hlast]
    split_ifs with hrest
    · subst hrest
      rw [takeBeats_single hq]
      rfl
    · rw [takeBeats_cons hq p ts (List.replicate rest.length Turn.host ++ ts)]
      exact ih hemit rfl hrest (fun b' rest' h => heom b' rest' (h.trans (List.suffix_cons b rest))) rfl rfl

/-! ### The whole command -/

theorem step_of_accepted_write {i : Instr} {s : State} {p : List HostOp} {ts : List Turn}
    (hidle : s.phase = .idle) (hpass : firstError (checksOf i s) = none)
    (hprog : s.prog = wrReg .cmd (encode i) :: p) (hturns : s.turns = .host :: ts) :
    step s = .next (accept i (popOp p (popTurn ts s))) := by
  have hparams : SameParams s (popOp p (popTurn ts s)) := ⟨rfl, rfl, rfl, rfl, rfl⟩
  rw [step_of_cmd_write hturns hprog (decode_encode i)]
  exact exec_eq_accept (s := popOp p (popTurn ts s)) hidle (by rwa [checksOf_congr hparams])

/-- From its acceptance a command runs through its input turns and then its host turns. -/
theorem steps_accept_drain {i : Instr} {s : State} {q : List Beat} {p : List HostOp} {ts : List Turn}
    (hq : beats (result (latch i s) (s.hostIn.take s.len.toNat)) = q) (hin : s.len.toNat ≤ s.hostIn.length)
    (hprog : s.prog = .pullAll :: p)
    (hturns : s.turns = List.replicate s.len.toNat .input ++ (List.replicate q.length .host ++ ts)) :
    steps (s.len.toNat + q.length) (accept i s) = .next (completeCommand (takeBeats p ts
      (finishLoad (takeBytes s.len.toNat (List.replicate q.length .host ++ ts) (latchCommand i s))))) := by
  rw [steps_add q.length (steps_accept hin hturns)]
  refine steps_drain rfl hq ?_ (fun b rest h => ?_) hprog rfl
  · rw [← hq]
    exact output_ne_nil _ _
  · rw [← hq] at h
    exact eom_iff_last_of_suffix h

/-- Settles O60: the CMD write accepts the command, and the rest of the run is `steps_accept_drain`. -/
theorem acceptedCommandRunsToCompletion : Obligations.AcceptedCommandRunsToCompletion := by
  intro i s p ts hidle haddr hseg hcap hin hprog hturns
  generalize hq : beats (result (latch i s) (s.hostIn.take s.len.toNat)) = q at hturns ⊢
  have hpass := firstError_checksOf_eq_none haddr hseg hcap
  have hwrite := step_of_accepted_write hidle hpass hprog hturns
  have hrun := steps_accept_drain (i := i) (p := p) (ts := ts) (s := popOp (.pullAll :: p)
    (popTurn (List.replicate s.len.toNat .input ++ (List.replicate q.length .host ++ ts)) s)) hq hin rfl rfl
  rw [Nat.add_assoc, Nat.add_comm 1]
  exact ⟨_, (steps_succ _ hwrite).trans hrun, congrArg (s.hostOut ++ ·) hq, rfl, rfl, rfl, rfl, rfl, rfl, rfl,
    ⟨rfl, rfl, rfl, rfl, rfl⟩, rfl, rfl⟩

end Sys2Proof.Machine
end
